-- ==== Sys2Proof/Word.lean ====
section
/-! DEFINITION. The widths of LSLM-CORE's registers and ports (00_scope.md R10, 10_state.md). -/

namespace Sys2Proof

/-- One byte: a buffer byte, a frame data byte, a tag, a node identifier (R8, R22, R94). -/
abbrev Byte := BitVec 8

/-- A 16-bit register: `exp_len`, the raw 16-bit fields, the thresholds (R26, R33, R41). -/
abbrev Half := BitVec 16

/-- A 32-bit register: identifiers, 32-bit raw fields, cooldowns (R10, R33, R94). -/
abbrev Word := BitVec 32

/-- A time: a 32-bit count of milliseconds that wraps (R10, R54). -/
abbrev Time := BitVec 32

/-- A 64-bit operand, port or CSR value (R47, R100). -/
abbrev Dword := BitVec 64

end Sys2Proof
end

