-- ==== Sys2Proof/Config.lean ====
section
/-! DEFINITION. The parameters of 00_scope.md R8 and R9, and the free inputs of the environment. -/

namespace Sys2Proof.Config

/-- Capacity of the logical response buffer in bytes (R8). -/
abbrev BUF_CAP : Nat := 50

/-- Tag of the realtime shape, the first buffer byte (R8). -/
abbrev TAG_RT : Byte := 0x32

/-- Exact length of the realtime shape (R8). -/
abbrev LEN_RT : BitVec 6 := 18

/-- Exact length of the balance shape (R8). -/
abbrev LEN_BAL : BitVec 6 := 37

/-- Exact payload length of the broadcast shape (R8). -/
abbrev LEN_BC : Byte := 8

/-- Divisor of the raw duty field (R8). -/
abbrev DUTY_SCALE : Nat := 1000

/-- Divisor of the raw voltage field (R8). -/
abbrev VOLT_SCALE : Nat := 10

/-- Divisor of the raw balance sensor fields (R8). -/
abbrev SENS_SCALE : Nat := 1000000

/-- Divisor of the four broadcast fields (R8). -/
abbrev BC_SCALE : Nat := 1000

/-- Default duty-cycle alert cooldown, the reset value of `CFG_DUTY_CD` (R8, R43). -/
abbrev DUTY_CD_DEFAULT : Time := 1000

/-- Default low-voltage alert cooldown, the reset value of `CFG_LOWV_CD` (R8, R44). -/
abbrev LOWV_CD_DEFAULT : Time := 5000

/-- Default presence threshold 0.15, raw 150, the reset value of `CFG_PRES_THR` (R8, R46). -/
abbrev PRES_THR_DEFAULT : Half := 150

/-- The parameters the document leaves open (R9). The machine holds one value of this record
and no step changes it; claims are stated for every value that meets `Params.ok`. -/
structure Params where
  TAG_FILL : Byte
  TAG_HDR : Byte
  TAG_REQ_RT : Byte
  TAG_REQ_BAL : Byte
  OWN_ID : Byte
  PEER_ID : Byte
  MAX_POLLS : Nat
  WINDOW_MS : Nat
  TONE_TICK_MS : Nat
  TAG_BAL : Byte
  HAS_BCAST : Bool
  deriving DecidableEq, Repr

/-- The constraints of R9 on the parameters. `MAX_POLLS < 2^32` is DEDUCED from R47, which gives the
CSR `RE_POLLS` 32 bits and the content `zext_32(re_polls)` (log 2). -/
structure Params.ok (p : Params) : Prop where
  tags_differ : p.TAG_FILL ≠ p.TAG_HDR
  bal_not_rt : p.TAG_BAL ≠ TAG_RT
  polls_pos : 1 ≤ p.MAX_POLLS
  polls_lt : p.MAX_POLLS < 2 ^ 32
  window_pos : 1 ≤ p.WINDOW_MS
  window_lt : p.WINDOW_MS < 2 ^ 31
  tone_pos : 1 ≤ p.TONE_TICK_MS
  tone_lt : p.TONE_TICK_MS < 2 ^ 31

/-- P0, the example instantiation of R9 (its four frame tags are from general knowledge, U12, G1).
DESIGN CHOICE: `State.reset` uses it (log 1). -/
def p0 : Params where
  TAG_FILL := 0x05
  TAG_HDR := 0x07
  TAG_REQ_RT := 0x08
  TAG_REQ_BAL := 0x08
  OWN_ID := 0x02
  PEER_ID := 0x0A
  MAX_POLLS := 64
  WINDOW_MS := 5
  TONE_TICK_MS := 10
  TAG_BAL := 0x4F
  HAS_BCAST := true

/-! The environment's inputs where the state schedules none: uninterpreted, so that nothing can be
proved of their values (R54, R236, R237, U5, U6, U7, U16; log 4). The index counts the free inputs used. -/

/-- Whether reset is asserted at a free operation (R250). -/
opaque freeRst : Nat → Bool

/-- The time at a free operation (R54). -/
opaque freeNow : Nat → Time

/-- Whether the host presents a command at a free operation (R53). -/
opaque freeCmdValid : Nat → Bool

/-- The command word at a free operation (R100). -/
opaque freeCmd : Nat → BitVec 80

/-- The Tone Driver's answer at a free operation (R237). -/
opaque freeToneBusy : Nat → Bool

/-- Whether the Frame Transport has a frame for a free poll (R236). -/
opaque freeRxValid : Nat → Bool

/-- The identifier of a free poll's frame (R236). -/
opaque freeRxId : Nat → Word

/-- The length of a free poll's frame (R236). -/
opaque freeRxLen : Nat → Byte

/-- `rx_data` of a free poll's frame (R53, R236). -/
opaque freeRxData : Nat → Dword

end Sys2Proof.Config
end

