-- ==== Sys2Proof/Syntax.lean ====
section
/-! DEFINITION. The operations of 30_encoding.md R90 and the formats that select them (R91). -/

namespace Sys2Proof

/-- Format F, the bus frame `{ id: u32, length: u8, data: byte[8] }` (R92). -/
structure Frame where
  id : Word
  length : Byte
  data : Vector Byte 8
  deriving DecidableEq, Repr

/-- The classes of an answer of `rx()`, with the operands each one carries (R95, R96, R97, R128). -/
inductive Answer where
  /-- RX.NONE: no frame available. -/
  | noFrame
  /-- RX.FILL: the offset `data[0]` and the payload `data[1 .. L-1]`. -/
  | fill (offset : Byte) (payload : List Byte)
  /-- RX.HDR: `data[0]`, `data[1]`, the declared length, and the ignored bytes `data[4 .. L-1]`. -/
  | header (b0 b1 : Byte) (expLen : Half) (rest : List Byte)
  /-- RX.IGN: any other frame. -/
  | ignored (f : Frame)
  deriving DecidableEq, Repr

/-- The request frames RE.START can send (R98, R121). -/
inductive Request where
  | own
  | realtime
  | balance
  deriving DecidableEq, Repr

/-- The message shapes TD.DECODE knows (R99). -/
inductive Shape where
  | realtime
  | balance
  deriving DecidableEq, Repr

/-- The operation set: one constructor per row of `opcode_table.json` (R90). Operand bits an operation
does not use are not operands (R100). -/
inductive Instr where
  /-- RE.START (R120). -/
  | reStart (sel : Byte)
  /-- TX.REQ (R121). -/
  | txReq
  /-- TX.REQ_RT (R121). -/
  | txReqRt
  /-- TX.REQ_BAL (R121). -/
  | txReqBal
  /-- RE.POLL (R122). -/
  | rePoll
  /-- RX.NONE (R123). -/
  | rxNone
  /-- RX.FILL (R124). -/
  | rxFill (offset : Byte) (payload : List Byte)
  /-- RX.HDR (R126). -/
  | rxHdr (b0 b1 : Byte) (expLen : Half) (rest : List Byte)
  /-- RX.IGN (R127). -/
  | rxIgn (f : Frame)
  /-- RE.END (R130). -/
  | reEnd
  /-- RE.RD (R132). -/
  | reRd (index : Byte)
  /-- TD.DECODE (R150). -/
  | tdDecode (tag : Byte)
  /-- MSG.RT (R151). -/
  | msgRt
  /-- MSG.BAL (R152). -/
  | msgBal
  /-- TD.BCAST (R154). -/
  | tdBcast (len : Byte) (d : Dword)
  /-- AS.INIT (R170). -/
  | asInit
  /-- AS.TICK (R171). -/
  | asTick
  /-- NOP (R200). -/
  | nop
  /-- CSR.WR (R202). -/
  | csrWr (num : Byte) (value : Dword)
  /-- CSR.RD (R201). -/
  | csrRd (num : Byte)
  deriving DecidableEq, Repr

/-- What selects an operation, one form per column "selected by" of R90. -/
inductive Code where
  /-- Format H: an 80-bit host command word (R100). -/
  | command (w : BitVec 80)
  /-- An answer of `rx()`: no frame, or a frame (R95). -/
  | answer (a : Option Frame)
  /-- The selector of RE.START, which selects the emitted frame (R121). -/
  | request (sel : Byte)
  /-- The tag and length of a validated buffer, which select a message shape (R99). -/
  | shape (tag : Byte) (len : BitVec 6)
  /-- A step of the RE sequencer; `true` where a bound is reached, which selects RE.END (R122, R130). -/
  | sequencer (bound : Bool)
  deriving DecidableEq, Repr

end Sys2Proof
end

