-- ==== Sys2Proof/Decode.lean ====
section
/-! DEFINITION. The decoder, total on every form that selects an operation, and after it the encoder
(30_encoding.md R90 to R105). -/

namespace Sys2Proof

open Config

/-- Why a form selects no operation. -/
inductive Reject where
  /-- An op byte outside the map of R101: the block answers `E_BADOP`. -/
  | undefinedOp (op : Byte)
  /-- A selector above 2: RE.START answers `E_BADSEL` (R120). -/
  | badSelector (sel : Byte)
  /-- A tag and length that are no message shape: TD.DECODE answers `E_DECODE` (R150). -/
  | noShape (tag : Byte) (len : BitVec 6)
  deriving DecidableEq, Repr

/-! ### Byte and bit-field helpers -/

/-- `be16(a, b)`: the big-endian 16-bit value of two bytes, `a` first (R12, R60). -/
def be16 (a b : Byte) : Half := a ++ b

/-- `be32(a, b, c, d)`: the big-endian 32-bit value of four bytes, `a` first (R12, R60). -/
def be32 (a b c d : Byte) : Word := (a ++ b) ++ (c ++ d)

/-- Byte `k` of a 64-bit operand or port, bits `[63-8k : 56-8k]` (R62, D29). -/
def byteOf (d : Dword) (k : Nat) : Byte := d.extractLsb' (56 - 8 * k) 8

/-- The eight-byte array on a 64-bit port or operand (R62). -/
def unpackBytes (d : Dword) : Vector Byte 8 :=
  #v[byteOf d 0, byteOf d 1, byteOf d 2, byteOf d 3, byteOf d 4, byteOf d 5, byteOf d 6, byteOf d 7]

/-- The 64-bit port value of an eight-byte array, byte 0 the most significant (R62, D29). -/
def packBytes (b : Vector Byte 8) : Dword :=
  be32 b[0] b[1] b[2] b[3] ++ be32 b[4] b[5] b[6] b[7]

/-- `CID(tag, node) = 0x8000_0000 | (tag << 8) | node` (R94). -/
def cid (tag node : Byte) : Word :=
  0x80000000#32 ||| (tag.setWidth 32 <<< 8) ||| node.setWidth 32

/-- `FILL_ID = CID(TAG_FILL, OWN_ID)` (R95). -/
def fillId (p : Params) : Word := cid p.TAG_FILL p.OWN_ID

/-- `HDR_ID = CID(TAG_HDR, OWN_ID)` (R95). -/
def hdrId (p : Params) : Word := cid p.TAG_HDR p.OWN_ID

/-- The meaningful bytes of a frame: `data[0 .. length-1]` (R93). -/
def Frame.bytes (f : Frame) : List Byte := f.data.toList.take f.length.toNat

/-- The frame of an identifier and at most eight data bytes, the rest of `data` 0x00 (R92, D9). -/
def frameOf (id : Word) (bytes : List Byte) : Frame where
  id := id
  length := BitVec.ofNat 8 bytes.length
  data := #v[bytes.getD 0 0, bytes.getD 1 0, bytes.getD 2 0, bytes.getD 3 0,
    bytes.getD 4 0, bytes.getD 5 0, bytes.getD 6 0, bytes.getD 7 0]

/-! ### The decoder -/

/-- Receive classification, exhaustive and exclusive, from the presence of a frame, its identifier and its
length alone (R95, R128). -/
def classify (p : Params) : Option Frame → Answer
  | none => .noFrame
  | some f =>
    if f.id = fillId p ∧ 1 ≤ f.length.toNat ∧ f.length.toNat ≤ 8 then
      .fill f.data[0] (f.bytes.drop 1)
    else if f.id = hdrId p ∧ 4 ≤ f.length.toNat ∧ f.length.toNat ≤ 8 then
      .header f.data[0] f.data[1] (be16 f.data[2] f.data[3]) (f.bytes.drop 4)
    else .ignored f

/-- The field `op` of a host command, bits 79:72 (R100). -/
def cmdOp (w : BitVec 80) : Byte := w.extractLsb' 72 8

/-- The field `a` of a host command, bits 71:64 (R100). -/
def cmdA (w : BitVec 80) : Byte := w.extractLsb' 64 8

/-- The field `d` of a host command, bits 63:0 (R100). -/
def cmdD (w : BitVec 80) : Dword := w.extractLsb' 0 64

/-- The operation an RE.START selector names, as a request (R121). -/
def requestOf (sel : Byte) : Option Request :=
  if sel = 0 then some .own
  else if sel = 1 then some .realtime
  else if sel = 2 then some .balance
  else none

/-- The message shape of a tag and an exact length, in the order of R150's tests. -/
def shapeOf (p : Params) (tag : Byte) (len : BitVec 6) : Option Shape :=
  if tag = TAG_RT then (if len = LEN_RT then some .realtime else none)
  else if tag = p.TAG_BAL then (if len = LEN_BAL then some .balance else none)
  else none

/-- The instruction an answer class stands for (R128). -/
def Answer.toInstr : Answer → Instr
  | .noFrame => .rxNone
  | .fill o payload => .rxFill o payload
  | .header b0 b1 expLen rest => .rxHdr b0 b1 expLen rest
  | .ignored f => .rxIgn f

/-- The instruction a request stands for (R121). -/
def Request.toInstr : Request → Instr
  | .own => .txReq
  | .realtime => .txReqRt
  | .balance => .txReqBal

/-- The instruction a message shape stands for (R99). -/
def Shape.toInstr : Shape → Instr
  | .realtime => .msgRt
  | .balance => .msgBal

/-- The host op map of R101. -/
def decodeCommand (w : BitVec 80) : Except Reject Instr :=
  if cmdOp w = 0x00 then .ok .nop
  else if cmdOp w = 0x01 then .ok (.csrWr (cmdA w) (cmdD w))
  else if cmdOp w = 0x02 then .ok (.csrRd (cmdA w))
  else if cmdOp w = 0x10 then .ok (.reStart (cmdA w))
  else if cmdOp w = 0x12 then .ok (.reRd (cmdA w))
  else if cmdOp w = 0x20 then .ok (.tdDecode (cmdA w))
  else if cmdOp w = 0x21 then .ok (.tdBcast (cmdA w) (cmdD w))
  else if cmdOp w = 0x30 then .ok .asInit
  else if cmdOp w = 0x31 then .ok .asTick
  else .error (.undefinedOp (cmdOp w))

/-- The decoder: the operation a form selects, or a rejection by name (R90). -/
def decode (p : Params) : Code → Except Reject Instr
  | .command w => decodeCommand w
  | .answer a => .ok (classify p a).toInstr
  | .request sel =>
    match requestOf sel with
    | some r => .ok r.toInstr
    | none => .error (.badSelector sel)
  | .shape tag len =>
    match shapeOf p tag len with
    | some m => .ok m.toInstr
    | none => .error (.noShape tag len)
  | .sequencer bound => .ok (if bound then .reEnd else .rePoll)

/-! ### The encoder -/

/-- A host command word from its three fields (R100). -/
def commandWord (op a : Byte) (d : Dword) : BitVec 80 := (op ++ a) ++ d

/-- The answer of `rx()` an answer class stands for, with unused data bytes 0x00 (R92, R96, R97). -/
def Answer.toFrame (p : Params) : Answer → Option Frame
  | .noFrame => none
  | .fill o payload => some (frameOf (fillId p) (o :: payload))
  | .header b0 b1 expLen rest =>
    some (frameOf (hdrId p) (b0 :: b1 :: expLen.extractLsb' 8 8 :: expLen.extractLsb' 0 8 :: rest))
  | .ignored f => some f

/-- The encoder: the form that selects an instruction (R90, R95, R98, R99, R101). Operand bits that the
operation ignores are 0. -/
def encode (p : Params) : Instr → Code
  | .reStart sel => .command (commandWord 0x10 sel 0)
  | .txReq => .request 0
  | .txReqRt => .request 1
  | .txReqBal => .request 2
  | .rePoll => .sequencer false
  | .rxNone => .answer none
  | .rxFill o payload => .answer ((Answer.fill o payload).toFrame p)
  | .rxHdr b0 b1 expLen rest => .answer ((Answer.header b0 b1 expLen rest).toFrame p)
  | .rxIgn f => .answer ((Answer.ignored f).toFrame p)
  | .reEnd => .sequencer true
  | .reRd i => .command (commandWord 0x12 i 0)
  | .tdDecode t => .command (commandWord 0x20 t 0)
  | .msgRt => .shape TAG_RT LEN_RT
  | .msgBal => .shape p.TAG_BAL LEN_BAL
  | .tdBcast n d => .command (commandWord 0x21 n d)
  | .asInit => .command (commandWord 0x30 0 0)
  | .asTick => .command (commandWord 0x31 0 0)
  | .nop => .command (commandWord 0x00 0 0)
  | .csrWr n v => .command (commandWord 0x01 n v)
  | .csrRd n => .command (commandWord 0x02 n 0)

/-! ### The words of `opcode_table.json` -/

/-- The form a word of the operation table stands for, at the instantiation P0 whose values the table
gives (log 11): 80 bits are a host command; 32 bits are a bus identifier, that of a request frame the block
emits or that of a received frame with a full, all-zero data array; 8 bits are `rx_valid = 0` or the tag of a
message shape at its exact length. -/
def tableCode (nbits w : Nat) : Option Code :=
  if nbits = 80 then some (.command (BitVec.ofNat 80 w))
  else if nbits = 32 then
    if BitVec.ofNat 32 w = cid p0.TAG_REQ_RT p0.PEER_ID then some (.request 1)
    else some (.answer (some
      { id := BitVec.ofNat 32 w, length := 8, data := #v[0, 0, 0, 0, 0, 0, 0, 0] }))
  else if nbits = 8 then
    if w = 0 then some (.answer none)
    else if w = 0x32 then some (.shape TAG_RT LEN_RT)
    else if w = 0x4F then some (.shape p0.TAG_BAL LEN_BAL)
    else none
  else none

/-- The instruction the decoder reads from a word numbered as `opcode_table.json` numbers it (log 11). -/
def decodeTableWord (nbits w : Nat) : Option Instr :=
  match tableCode nbits w with
  | some c =>
    match decode p0 c with
    | .ok i => some i
    | .error _ => none
  | none => none

end Sys2Proof
end

