-- ==== Sys2Proof/Machine/State.lean ====
section
/-! DEFINITION. The state of LSLM-CORE (10_state.md R20 to R46), the ports of R53, and reset (R55). -/

namespace Sys2Proof.Machine

open Config

/-- The block never traps, never halts and never enters an error state (R220), so there is no fault: nobody
raises one. -/
inductive Fault
  deriving DecidableEq, Repr

/-- Why a step may have no meaning. -/
inductive Refusal where
  /-- Raised by an arm of `exec` whose instruction is not modelled yet: no arm of this model is. Safe. -/
  | notModelled (mnemonic : String)
  deriving DecidableEq, Repr

/-- The Alert Priority State (R18, R36). -/
inductive Priority where
  | none
  | dutyCycle
  | lowVoltage
  | startupChime
  deriving DecidableEq, Repr

/-- The alert patterns the scheduler can queue (43_alert_scheduler.md, D23). -/
inductive Pattern where
  /-- Pattern 1, the short single-beep pattern. -/
  | singleBeep
  /-- Pattern 2, the descending pattern. -/
  | descending
  /-- Pattern 3, the startup chime. -/
  | startupChime
  deriving DecidableEq, Repr

/-- The response codes of R221. -/
inductive RspCode where
  | ok
  | decode
  | noData
  | range
  | badReg
  | readOnly
  | badSel
  | notInit
  | badOp
  | already
  deriving DecidableEq, Repr

/-- The transport's send ports of R53 while `tx_valid = 1`. Byte `k` of the frame is `tx_data[63-8k : 56-8k]` (R62). -/
structure TxPort where
  tx_id : Word
  tx_len : BitVec 4
  tx_data : Dword
  deriving DecidableEq, Repr

/-- The transport's receive ports of R53, the answer to one `rx_poll`. With `rx_valid = 0` there is no frame and the
other three are not looked at; byte `k` of a frame is `rx_data[63-8k : 56-8k]` (R62). -/
structure RxPort where
  rx_valid : Bool
  rx_id : Word
  rx_len : Byte
  rx_data : Dword
  deriving DecidableEq, Repr

/-- What the block puts on its output ports (R14, R53, R102). The record of outputs is a DESIGN CHOICE (log 7). -/
inductive Output where
  /-- `rsp_code`, `rsp_value`: the response to a host command. -/
  | respond (code : RspCode) (value : Dword)
  /-- `tx_valid` and `tx_*`: one frame to send. -/
  | tx (x : TxPort)
  /-- `rx_poll`: one poll of the Frame Transport. -/
  | rxPoll
  /-- `tone_enq`, `tone_pattern`: one pattern queued at the Tone Driver. -/
  | toneEnqueue (p : Pattern)
  /-- `tone_tick`: one drive pulse. -/
  | toneTick
  deriving DecidableEq, Repr

/-- One sample of the input ports of R53, the inputs of one operation; the answers to `rx_poll` are
apart, in `State.rxAnswers`. -/
structure Ports where
  /-- `rst`. -/
  rst : Bool
  /-- `now_ms`. -/
  now_ms : Time
  /-- `cmd_valid` and `cmd`: the host command of this operation, if it is the host's. -/
  cmd : Option (BitVec 80)
  /-- `tone_busy`. -/
  tone_busy : Bool
  deriving DecidableEq, Repr

/-- The logical response buffer as a list of (index, byte) cells in one canonical form: indices strictly
rising, no entry equal to 0x00, which is what an unlisted index reads as (R22, R55, D10). The form is a
DESIGN CHOICE (log 8). -/
abbrev Memory := List Host.Cell

/-- The RE group of R20. -/
@[ext]
structure ReState where
  /-- R21. -/
  re_busy : Bool
  /-- R22. -/
  buf : Memory
  /-- R23. -/
  filled : Vector Bool BUF_CAP
  /-- R24. -/
  filled_len : BitVec 6
  /-- R25. -/
  hdr_seen : Bool
  /-- R26. -/
  exp_len : Half
  /-- R27. -/
  hdr_b0 : Byte
  /-- R27. -/
  hdr_b1 : Byte
  /-- R28. -/
  re_t0 : Time
  /-- R29; its width depends on `MAX_POLLS`, so it is a count (log 2). -/
  re_polls : Nat
  /-- R30. -/
  buf_valid : Bool
  /-- R31. -/
  buf_len : BitVec 6
  /-- R32. -/
  REQ_DEST : Byte
  /-- R32. -/
  REQ_TAG : Byte
  /-- R32. -/
  REQ_LEN : BitVec 3
  /-- R32. -/
  REQ_PAY : BitVec 56
  deriving DecidableEq, Repr

/-- The TD group of R20: the telemetry snapshot and the presence threshold. -/
@[ext]
structure TdState where
  /-- R33. -/
  snap_duty : Half
  /-- R33. -/
  snap_erpm : Word
  /-- R33. -/
  snap_volt : Half
  /-- R33. -/
  snap_rt_valid : Bool
  /-- R34. -/
  snap_bal_status : Half
  /-- R34. -/
  snap_sens_a : Word
  /-- R34. -/
  snap_sens_b : Word
  /-- R34. -/
  snap_bal_valid : Bool
  /-- R35. -/
  bc_ch0 : Half
  /-- R35. -/
  bc_ch1 : Half
  /-- R35. -/
  bc_ch2 : Half
  /-- R35. -/
  bc_aux : Half
  /-- R35. -/
  bc_presence : Bool
  /-- R35. -/
  bc_valid : Bool
  /-- R46. -/
  CFG_PRES_THR : Half
  deriving DecidableEq, Repr

/-- The AS group of R20. -/
@[ext]
structure AsState where
  /-- R36. -/
  prio : Priority
  /-- R37. -/
  sch_init : Bool
  /-- R38. -/
  duty_last : Time
  /-- R38. -/
  duty_fired : Bool
  /-- R39. -/
  lowv_last : Time
  /-- R39. -/
  lowv_fired : Bool
  /-- R40. -/
  tone_last : Time
  /-- R41. -/
  CFG_DUTY_THR : Half
  /-- R42. -/
  CFG_VOLT_THR : Half
  /-- R43. -/
  CFG_DUTY_CD : Time
  /-- R44. -/
  CFG_LOWV_CD : Time
  /-- R45. -/
  CFG_CHIME_EN : Bool
  deriving DecidableEq, Repr

/-- The machine: the block's three groups of registers (R20), its parameters (R9), and the model's own fields
for the inputs and outputs of the step relation (R15, R53; log 3, 5, 6, 7). -/
@[ext]
structure State where
  /-- The parameters of R9; no step changes them (log 1). -/
  cfg : Params
  /-- The reassembly engine. -/
  re : ReState
  /-- The telemetry decoder. -/
  td : TdState
  /-- The alert scheduler. -/
  sch : AsState
  /-- The input ports as the operation in progress sampled them. -/
  port : Ports
  /-- The samples of the operations to come, next first. -/
  script : List Ports
  /-- The Frame Transport's answers on the `rx_*` ports to the polls to come, next first. -/
  rxAnswers : List RxPort
  /-- Every output so far, newest first. -/
  outs : List Output
  /-- How many free inputs have been used (log 4). -/
  free : Nat
  deriving DecidableEq, Repr

/-- The RE group after reset (R55). -/
def ReState.reset : ReState where
  re_busy := false
  buf := []
  filled := Vector.replicate BUF_CAP false
  filled_len := 0
  hdr_seen := false
  exp_len := 0
  hdr_b0 := 0
  hdr_b1 := 0
  re_t0 := 0
  re_polls := 0
  buf_valid := false
  buf_len := 0
  REQ_DEST := 0
  REQ_TAG := 0
  REQ_LEN := 0
  REQ_PAY := 0

/-- The TD group after reset (R55). -/
def TdState.reset : TdState where
  snap_duty := 0
  snap_erpm := 0
  snap_volt := 0
  snap_rt_valid := false
  snap_bal_status := 0
  snap_sens_a := 0
  snap_sens_b := 0
  snap_bal_valid := false
  bc_ch0 := 0
  bc_ch1 := 0
  bc_ch2 := 0
  bc_aux := 0
  bc_presence := false
  bc_valid := false
  CFG_PRES_THR := PRES_THR_DEFAULT

/-- The AS group after reset (R55). -/
def AsState.reset : AsState where
  prio := .none
  sch_init := false
  duty_last := 0
  duty_fired := false
  lowv_last := 0
  lowv_fired := false
  tone_last := 0
  CFG_DUTY_THR := 0
  CFG_VOLT_THR := 0
  CFG_DUTY_CD := DUTY_CD_DEFAULT
  CFG_LOWV_CD := LOWV_CD_DEFAULT
  CFG_CHIME_EN := false

/-- The input ports with nothing on them. DESIGN CHOICE: the value of `port` before the first operation
(log 5). -/
def Ports.quiet : Ports where
  rst := false
  now_ms := 0
  cmd := none
  tone_busy := false

/-- The machine right after reset, for a choice of the parameters of R9: every register as in R55, and
nothing scheduled, answered or output (DESIGN CHOICE for the inputs, log 5). -/
def State.resetWith (p : Params) : State where
  cfg := p
  re := ReState.reset
  td := TdState.reset
  sch := AsState.reset
  port := Ports.quiet
  script := []
  rxAnswers := []
  outs := []
  free := 0

/-- The machine right after reset at the example instantiation P0 of R9 (log 1). -/
def State.reset : State := State.resetWith p0

end Sys2Proof.Machine
end

