-- ==== Sys2Proof/Machine/Ops.lean ====
section
/-! DEFINITION. The named operations over memory, the ports and the registers. -/

namespace Sys2Proof.Machine

open Config

/-! ### The logical buffer (20_memory.md) -/

/-- One byte of the buffer: 0x00 where no cell is listed (R13, R22, D10; log 8). An index of 50 or more, which no rule
reads, answers 0x00 as well: DESIGN CHOICE (log 9). -/
def Memory.read : Memory → Nat → Byte
  | [], _ => 0
  | c :: m, i => if c.1 = i then c.2 else Memory.read m i

/-- A cell put in its place in a list of rising indices. -/
def Memory.insertCell (i : Nat) (v : Byte) : Memory → Memory
  | [] => [(i, v)]
  | c :: m => if i < c.1 then (i, v) :: c :: m else c :: Memory.insertCell i v m

/-- A list without the cells of one index. -/
def Memory.erase (m : Memory) (i : Nat) : Memory := m.filter (fun c => c.1 != i)

/-- One byte written: a byte 0x00 is not listed, so that equal buffers are equal lists (R13). -/
def Memory.write (m : Memory) (i : Nat) (v : Byte) : Memory :=
  if v = 0 then m.erase i else (m.erase i).insertCell i v

/-- Indices strictly rising from a lower bound, inside the capacity, with no 0x00 listed. -/
def Memory.wfFrom : Nat → Memory → Bool
  | _, [] => true
  | lo, c :: m => decide (lo ≤ c.1 ∧ c.1 < BUF_CAP ∧ c.2 ≠ 0) && Memory.wfFrom (c.1 + 1) m

/-- The canonical form of the buffer: indices strictly rising below 50, no 0x00 listed. -/
def Memory.wf (m : Memory) : Bool := Memory.wfFrom 0 m

/-- `MemRead(i, 2)`: a 16-bit big-endian field (R60). -/
def Memory.read16 (m : Memory) (i : Nat) : Half := be16 (m.read i) (m.read (i + 1))

/-- `MemRead(i, 4)`: a 32-bit big-endian field (R60). -/
def Memory.read32 (m : Memory) (i : Nat) : Word :=
  be32 (m.read i) (m.read (i + 1)) (m.read (i + 2)) (m.read (i + 3))

/-- `MemWrite(i, 1, v)` with the bounds test and the fill tracking of R64: an index of 50 or more is no
action. -/
def ReState.storeByte (re : ReState) (i : Nat) (v : Byte) : ReState :=
  if h : i < BUF_CAP then
    { re with
      filled_len := if re.filled[i] then re.filled_len else re.filled_len + 1
      filled := re.filled.set i true
      buf := re.buf.write i v }
  else re

/-- Payload bytes stored at consecutive indices, computed without wrap-around (R64, R65, R124). -/
def ReState.storeBytes (re : ReState) : Nat → List Byte → ReState
  | _, [] => re
  | i, v :: vs => (re.storeByte i v).storeBytes (i + 1) vs

/-! ### Output ports and responses -/

/-- The 4-bit code of a response (R221). -/
def RspCode.code : RspCode → BitVec 4
  | .ok => 0
  | .decode => 1
  | .noData => 2
  | .range => 3
  | .badReg => 4
  | .readOnly => 5
  | .badSel => 6
  | .notInit => 7
  | .badOp => 8
  | .already => 9

/-- The 2-bit code of a priority state (R18, R36). -/
def Priority.code : Priority → BitVec 2
  | .none => 0
  | .dutyCycle => 1
  | .lowVoltage => 2
  | .startupChime => 3

/-- The 2-bit id of a pattern (D23). -/
def Pattern.id : Pattern → BitVec 2
  | .singleBeep => 1
  | .descending => 2
  | .startupChime => 3

/-- One output on the block's ports. -/
def State.emit (s : State) (o : Output) : State := { s with outs := o :: s.outs }

/-- `respond(code, value)`: the one response of a host command (R14, R102). -/
def State.respond (s : State) (code : RspCode) (value : Dword) : State :=
  s.emit (.respond code value)

/-- A failing command: the response code with value 0, and no state change (R220, R221, R223). What a trap
would be on a processor. -/
def State.fail (s : State) (code : RspCode) : State := s.respond code 0

/-- `now`: the value of `now_ms` at this operation (R14, R54). -/
def State.now (s : State) : Time := s.port.now_ms

/-! ### The Frame Transport -/

/-- The frame on the receive ports, if there is one (R53, R62). -/
def RxPort.frame (a : RxPort) : Option Frame :=
  if a.rx_valid then some { id := a.rx_id, length := a.rx_len, data := unpackBytes a.rx_data } else none

/-- The receive ports that carry an answer; without a frame the other ports are 0. -/
def RxPort.ofFrame : Option Frame → RxPort
  | some f => { rx_valid := true, rx_id := f.id, rx_len := f.length, rx_data := packBytes f.data }
  | none => { rx_valid := false, rx_id := 0, rx_len := 0, rx_data := 0 }

/-- The send ports that carry a frame; a sent length, 0 to 7, fits `tx_len` (R53, R62, R93). -/
def TxPort.ofFrame (f : Frame) : TxPort where
  tx_id := f.id
  tx_len := f.length.setWidth 4
  tx_data := packBytes f.data

/-- A free answer of the transport, where none is scheduled (U5, log 4). -/
def freeAnswer (n : Nat) : RxPort where
  rx_valid := freeRxValid n
  rx_id := freeRxId n
  rx_len := freeRxLen n
  rx_data := freeRxData n

/-- The receive ports at the next `rx()` (R53, R236). -/
def State.nextRx (s : State) : RxPort :=
  match s.rxAnswers with
  | a :: _ => a
  | [] => freeAnswer s.free

/-- The answer the next `rx()` gets (R14, R236). -/
def State.nextAnswer (s : State) : Option Frame := s.nextRx.frame

/-- `rx()`: one poll of the transport, which removes the returned answer from it; a free answer uses up one free
input (R14, R67, R236). No other operation reaches the answers: DEDUCED (log 6). -/
def State.pollTransport (s : State) : State :=
  { s with
    rxAnswers := s.rxAnswers.tail
    free := if s.rxAnswers.isEmpty then s.free + 1 else s.free
    outs := .rxPoll :: s.outs }

/-! ### The operation to come -/

/-- A free sample of the input ports, where none is scheduled (R54, U6, U7, U16, log 4). -/
def freePorts (n : Nat) : Ports where
  rst := freeRst n
  now_ms := freeNow n
  cmd := if freeCmdValid n then some (freeCmd n) else none
  tone_busy := freeToneBusy n

/-- The next operation's inputs latched on the ports (R54, R70; log 3). -/
def State.sample (s : State) : State :=
  match s.script with
  | p :: rest => { s with port := p, script := rest }
  | [] => { s with port := freePorts s.free, free := s.free + 1 }

/-- The operations a sample of the ports can select (R15, R70). -/
inductive Selected where
  /-- The assertion of `rst` (R250). -/
  | reset
  /-- An instruction: a host command, or a step of the RE sequencer. -/
  | run (i : Instr)
  /-- A host command with an undefined op (R101). -/
  | undefinedOp
  /-- Nothing to do: no command and `re_busy = 0` (R240). -/
  | idle
  deriving DecidableEq, Repr

/-- The operation the sampled ports select. Reset wins over anything simultaneous (R225 i, R250); a sample
with a command is the host's turn, a sample without one is the RE sequencer's if `re_busy = 1`
(R122, R225 h; log 3). -/
def State.selected (s : State) : Selected :=
  if s.port.rst then .reset
  else
    match s.port.cmd with
    | some w =>
      match decode s.cfg (.command w) with
      | .ok i => .run i
      | .error _ => .undefinedOp
    | none => if s.re.re_busy then .run .rePoll else .idle

/-- Reset: every register to its value of R55, no output; the transport, the Tone Driver and the rest of the
environment are not reached (R250, R251). A command presented with it is dropped: DEDUCED (log 16). -/
def State.applyReset (s : State) : State :=
  { s with re := ReState.reset, td := TdState.reset, sch := AsState.reset }

/-! ### Cycle control of the reassembly engine -/

/-- The cycle-scoped state cleared, with the window's origin set to `now` (R120, R252); `REQ_*` is kept. -/
def State.clearCycle (s : State) : State :=
  { s with
    re :=
      { s.re with
        buf := []
        filled := Vector.replicate BUF_CAP false
        filled_len := 0
        hdr_seen := false
        exp_len := 0
        hdr_b0 := 0
        hdr_b1 := 0
        buf_valid := false
        buf_len := 0
        re_polls := 0
        re_t0 := s.now } }

/-- `re_busy <- 1` (R120). -/
def State.setBusy (s : State) : State := { s with re := { s.re with re_busy := true } }

/-- `re_polls <- re_polls + 1` (R122). -/
def State.countPoll (s : State) : State :=
  { s with re := { s.re with re_polls := s.re.re_polls + 1 } }

end Sys2Proof.Machine
end

