-- ==== Sys2Proof/Machine/Operands.lean ====
section
/-! DEFINITION. Operand assembly (30_encoding.md R98, R103): request descriptors, emitted frames, payload bytes,
time differences, and the signed and real readings of raw fields. -/

namespace Sys2Proof.Machine

open Config

/-- `s16(u)`: a 16-bit pattern as a signed integer (R12). -/
def s16 (u : Half) : Int := if u.toNat < 32768 then (u.toNat : Int) else (u.toNat : Int) - 65536

/-- `s32(u)`: a 32-bit pattern as a signed integer (R12). -/
def s32 (u : Word) : Int :=
  if u.toNat < 2147483648 then (u.toNat : Int) else (u.toNat : Int) - 4294967296

/-- `tdiff(a, b) = (a - b) mod 2^32` (R12, D2), with no premise that time advances: DESIGN CHOICE (log 13). -/
def tdiff (a b : Time) : Nat := (a - b).toNat

/-- Byte `k` of `REQ_PAY`, bits `[55-8k : 48-8k]` (R32, R62). -/
def payByte (p : BitVec 56) (k : Nat) : Byte := p.extractLsb' (48 - 8 * k) 8

/-- A request descriptor: tag, destination, payload (R121). -/
structure Descriptor where
  tag : Byte
  dest : Byte
  payload : List Byte
  deriving DecidableEq, Repr

/-- The seven bytes of `REQ_PAY`, byte 0 first (R32). -/
def reqBytes (p : BitVec 56) : List Byte :=
  [payByte p 0, payByte p 1, payByte p 2, payByte p 3, payByte p 4, payByte p 5, payByte p 6]

/-- `descriptor(0)`: bytes `0 .. REQ_LEN-1` of `REQ_PAY`, from the `REQ_*` registers (R121). -/
def descriptorOwn (s : State) : Descriptor where
  tag := s.re.REQ_TAG
  dest := s.re.REQ_DEST
  payload := (reqBytes s.re.REQ_PAY).take s.re.REQ_LEN.toNat

/-- `descriptor(1)`: the realtime-telemetry request, bit-exact (R98, R121). -/
def descriptorRt (s : State) : Descriptor where
  tag := s.cfg.TAG_REQ_RT
  dest := s.cfg.PEER_ID
  payload := [s.cfg.OWN_ID, 0x00, 0x32, 0x00, 0x00, 0x81, 0xC3]

/-- `descriptor(2)`: the balance-telemetry request, bit-exact (R98, R121). -/
def descriptorBal (s : State) : Descriptor where
  tag := s.cfg.TAG_REQ_BAL
  dest := s.cfg.PEER_ID
  payload := [s.cfg.OWN_ID, 0x00, 0x4F]

/-- The descriptor of a request (R121). -/
def descriptor (s : State) : Request → Descriptor
  | .own => descriptorOwn s
  | .realtime => descriptorRt s
  | .balance => descriptorBal s

/-- The frame of a descriptor: `{ id = CID(tag, dest), length = n, data = payload, rest 0x00 }` (R92, R98). -/
def Descriptor.frame (d : Descriptor) : Frame := frameOf (cid d.tag d.dest) d.payload

/-- `tx(CID(tag, dest), n, payload)`: the request frame handed to the Frame Transport (R120). -/
def State.send (s : State) (d : Descriptor) : State :=
  s.emit (.tx (TxPort.ofFrame d.frame))

/-! ### The reals of the document, exact rationals over the raw integers (R153, D14) -/

/-- The duty cycle, `s16(snap_duty) / 1000` (R33). -/
def TdState.dutyCycle (td : TdState) : Rat := (s16 td.snap_duty : Rat) / (DUTY_SCALE : Rat)

/-- The electrical speed, `s32(snap_erpm)` (R33). -/
def TdState.erpm (td : TdState) : Int := s32 td.snap_erpm

/-- The voltage in volts, `s16(snap_volt) / 10` (R33). -/
def TdState.voltage (td : TdState) : Rat := (s16 td.snap_volt : Rat) / (VOLT_SCALE : Rat)

/-- Sensor A, `s32(snap_sens_a) / 1,000,000` (R34). -/
def TdState.sensorA (td : TdState) : Rat := (s32 td.snap_sens_a : Rat) / (SENS_SCALE : Rat)

/-- Sensor B, `s32(snap_sens_b) / 1,000,000` (R34). -/
def TdState.sensorB (td : TdState) : Rat := (s32 td.snap_sens_b : Rat) / (SENS_SCALE : Rat)

/-- A broadcast field, `s16(raw) / 1000` (R35). -/
def broadcastValue (raw : Half) : Rat := (s16 raw : Rat) / (BC_SCALE : Rat)

/-- The duty threshold as a fraction of full duty (R41). -/
def AsState.dutyThreshold (sch : AsState) : Rat := (sch.CFG_DUTY_THR.toNat : Rat) / (DUTY_SCALE : Rat)

/-- The voltage threshold in volts (R42). -/
def AsState.voltThreshold (sch : AsState) : Rat := (sch.CFG_VOLT_THR.toNat : Rat) / (VOLT_SCALE : Rat)

end Sys2Proof.Machine
end

