-- ==== Sys2Proof/Machine/Flags.lean ====
section
/-! DEFINITION. Every condition and flag computation the spec gives (R51, R122, R129, R130, R155, R172 to R177). -/

namespace Sys2Proof.Machine

open Config

/-! ### Reassembly engine -/

/-- A bound of the collection is reached: `re_polls >= MAX_POLLS` or `tdiff(now, re_t0) >= WINDOW_MS`
(R122, D8). -/
def boundReached (s : State) : Bool :=
  decide (s.cfg.MAX_POLLS ≤ s.re.re_polls) || decide (s.cfg.WINDOW_MS ≤ tdiff s.now s.re.re_t0)

/-- The early-exit test: `hdr_seen = 1 and zext_16(filled_len) >= exp_len` (R129). -/
def complete (re : ReState) : Bool :=
  re.hdr_seen && decide (re.exp_len.toNat ≤ re.filled_len.toNat)

/-- The validation test: `hdr_seen = 1 and zext_16(filled_len) = exp_len` (R130). -/
def validates (re : ReState) : Bool :=
  re.hdr_seen && decide (re.filled_len.toNat = re.exp_len.toNat)

/-- There is no validated buffer to read: `re_busy = 1 or buf_valid = 0` (R132, R150). -/
def noData (s : State) : Bool := s.re.re_busy || !s.re.buf_valid

/-! ### Telemetry decoder -/

/-- `presence(c0, c1)`: either channel exceeds the threshold, as signed integers, strictly (R155). -/
def presence (thr c0 c1 : Half) : Bool :=
  decide ((thr.toNat : Int) < s16 c0) || decide ((thr.toNat : Int) < s16 c1)

/-! ### Alert scheduler -/

/-- The admission test `admits(c, p) = (p = 0) or (p >= c)` on the 2-bit codes (R176). -/
def admits (c p : Priority) : Bool :=
  decide (p.code = 0) || decide (c.code.toNat ≤ p.code.toNat)

/-- The cooldown test `(fired = 0) or (tdiff(now, last) >= cd)` (R177). -/
def cooldownOk (fired : Bool) (last cd now : Time) : Bool :=
  !fired || decide (cd.toNat ≤ tdiff now last)

/-- A drive pulse is due: `tdiff(now, tone_last) >= TONE_TICK_MS` (R172). -/
def pulseDue (s : State) : Bool := decide (s.cfg.TONE_TICK_MS ≤ tdiff s.now s.sch.tone_last)

/-- The reading of the duty-cycle condition: valid, enabled, magnitude above the threshold, strictly and
without wrap (R174). -/
def dutyExceeds (td : TdState) (sch : AsState) : Bool :=
  td.snap_rt_valid && decide (sch.CFG_DUTY_THR ≠ 0) &&
    decide (sch.CFG_DUTY_THR.toNat < (s16 td.snap_duty).natAbs)

/-- All five tests of the duty-cycle condition (R174). -/
def dutyFires (s : State) : Bool :=
  dutyExceeds s.td s.sch && cooldownOk s.sch.duty_fired s.sch.duty_last s.sch.CFG_DUTY_CD s.now &&
    admits .dutyCycle s.sch.prio

/-- The reading of the low-voltage condition: valid, enabled, signed reading below the unsigned threshold,
strictly (R175). -/
def voltBelow (td : TdState) (sch : AsState) : Bool :=
  td.snap_rt_valid && decide (sch.CFG_VOLT_THR ≠ 0) &&
    decide (s16 td.snap_volt < (sch.CFG_VOLT_THR.toNat : Int))

/-- All five tests of the low-voltage condition (R175). -/
def lowvFires (s : State) : Bool :=
  voltBelow s.td s.sch && cooldownOk s.sch.lowv_fired s.sch.lowv_last s.sch.CFG_LOWV_CD s.now &&
    admits .lowVoltage s.sch.prio

end Sys2Proof.Machine
end

