-- ==== Sys2Proof/Machine/Reassembly.lean ====
section
/-! DEFINITION. The reassembly engine (41_reassembly_engine.md R120 to R132). -/

namespace Sys2Proof.Machine

open Config

/-- The next state of a meaning that always completes. -/
abbrev Result := Host.Outcome State Fault Refusal

/-! ### The effects of the rows that happen inside another operation -/

/-- RE.END: validate and publish (R130). -/
def ReState.endCycle (re : ReState) : ReState :=
  if validates re then { re with buf_valid := true, buf_len := re.filled_len, re_busy := false }
  else { re with buf_valid := false, buf_len := 0, re_busy := false }

/-- RX.FILL: the payload stored from the offset, byte by byte (R124). -/
def ReState.fill (re : ReState) (offset : Byte) (payload : List Byte) : ReState :=
  re.storeBytes offset.toNat payload

/-- RX.HDR: the header captured, over any earlier one (R126). DESIGN CHOICE: not U1's stricter variant
(log 14). -/
def ReState.header (re : ReState) (b0 b1 : Byte) (expLen : Half) : ReState :=
  { re with hdr_b0 := b0, hdr_b1 := b1, exp_len := expLen, hdr_seen := true }

/-- What an answer of `rx()` does to the reassembly engine (R123, R124, R126, R127). -/
def ReState.accept (re : ReState) : Answer → ReState
  | .noFrame => re
  | .fill o payload => re.fill o payload
  | .header b0 b1 expLen _ => re.header b0 b1 expLen
  | .ignored _ => re

/-- The tail of an iteration: RE.END in the same step if the message is complete (R129). -/
def ReState.earlyExit (re : ReState) : ReState := if complete re then re.endCycle else re

/-! ### The meanings -/

/-- RE.START: begin a reassembly cycle (R120). -/
def execReStart (sel : Byte) (s : State) : Result :=
  match requestOf sel with
  | none => .next (s.fail .badSel)
  | some r => .next (((s.clearCycle.send (descriptor s r)).setBusy).respond .ok 0)

/-- TX.REQ: the request frame of the `REQ_*` registers (R121). -/
def execTxReq (s : State) : Result := .next (s.send (descriptorOwn s))

/-- TX.REQ_RT: the realtime-telemetry request frame (R121). -/
def execTxReqRt (s : State) : Result := .next (s.send (descriptorRt s))

/-- TX.REQ_BAL: the balance-telemetry request frame (R121). -/
def execTxReqBal (s : State) : Result := .next (s.send (descriptorBal s))

/-- One iteration of the collection loop past its bound tests: one `rx()`, one class, the early-exit
test (R122). -/
def State.iterate (s : State) : State :=
  let polled := s.countPoll.pollTransport
  { polled with re := (polled.re.accept (classify s.cfg s.nextAnswer)).earlyExit }

/-- RE.POLL: one iteration of the collection loop, enabled iff `re_busy = 1` (R122). With `re_busy = 0` the arm changes
nothing: DEDUCED (log 12). -/
def execRePoll (s : State) : Result :=
  if !s.re.re_busy then .next s
  else if boundReached s then .next { s with re := s.re.endCycle }
  else .next s.iterate

/-- RX.NONE: no effect beyond the poll's (R123). -/
def execRxNone (s : State) : Result := .next s

/-- RX.FILL: a fill fragment (R124, R125). -/
def execRxFill (offset : Byte) (payload : List Byte) (s : State) : Result :=
  .next { s with re := s.re.fill offset payload }

/-- RX.HDR: a header frame (R126); the bytes after the length are ignored. -/
def execRxHdr (b0 b1 : Byte) (expLen : Half) (_rest : List Byte) (s : State) : Result :=
  .next { s with re := s.re.header b0 b1 expLen }

/-- RX.IGN: no effect beyond the poll's; the frame is lost (R127). -/
def execRxIgn (_f : Frame) (s : State) : Result := .next s

/-- RE.END: validate and publish (R130). -/
def execReEnd (s : State) : Result := .next { s with re := s.re.endCycle }

/-- RE.RD: one byte of the validated buffer (R132). -/
def execReRd (index : Byte) (s : State) : Result :=
  if noData s then .next (s.fail .noData)
  else if s.re.buf_len.toNat ≤ index.toNat then .next (s.fail .range)
  else .next (s.respond .ok ((s.re.buf.read index.toNat).setWidth 64))

end Sys2Proof.Machine
end

