-- ==== Sys2Proof/Machine/Telemetry.lean ====
section
/-! DEFINITION. The telemetry decoder (42_telemetry_decoder.md R150 to R155). -/

namespace Sys2Proof.Machine

open Config

/-- MSG.RT: the realtime fields of a buffer (R151). -/
def TdState.takeRealtime (td : TdState) (buf : Memory) : TdState :=
  { td with
    snap_duty := buf.read16 9
    snap_erpm := buf.read32 11
    snap_volt := buf.read16 15
    snap_rt_valid := true }

/-- MSG.BAL: the balance fields of a buffer (R152). -/
def TdState.takeBalance (td : TdState) (buf : Memory) : TdState :=
  { td with
    snap_bal_status := buf.read16 25
    snap_sens_a := buf.read32 29
    snap_sens_b := buf.read32 33
    snap_bal_valid := true }

/-- The broadcast fields of eight data bytes, with the presence flag of the new values (R154, R155). -/
def TdState.takeBroadcast (td : TdState) (d : Dword) : TdState :=
  let c0 := be16 (byteOf d 0) (byteOf d 1)
  let c1 := be16 (byteOf d 2) (byteOf d 3)
  { td with
    bc_ch0 := c0
    bc_ch1 := c1
    bc_ch2 := be16 (byteOf d 4) (byteOf d 5)
    bc_aux := be16 (byteOf d 6) (byteOf d 7)
    bc_presence := presence td.CFG_PRES_THR c0 c1
    bc_valid := true }

/-- The snapshot written by a message shape (R151, R152). -/
def TdState.take (td : TdState) (buf : Memory) : Shape → TdState
  | .realtime => td.takeRealtime buf
  | .balance => td.takeBalance buf

/-- TD.DECODE: decode the validated buffer against an expected tag (R150). -/
def execTdDecode (tag : Byte) (s : State) : Result :=
  if noData s then .next (s.fail .noData)
  else if s.re.buf_len = 0 then .next (s.fail .decode)
  else if s.re.buf.read 0 ≠ tag then .next (s.fail .decode)
  else
    match shapeOf s.cfg tag s.re.buf_len with
    | none => .next (s.fail .decode)
    | some m => .next ({ s with td := s.td.take s.re.buf m }.respond .ok 0)

/-- MSG.RT: the realtime shape (R151). -/
def execMsgRt (s : State) : Result := .next { s with td := s.td.takeRealtime s.re.buf }

/-- MSG.BAL: the balance shape (R152). -/
def execMsgBal (s : State) : Result := .next { s with td := s.td.takeBalance s.re.buf }

/-- TD.BCAST: decode one broadcast payload; it exists iff `HAS_BCAST` (R154). -/
def execTdBcast (len : Byte) (d : Dword) (s : State) : Result :=
  if !s.cfg.HAS_BCAST then .next (s.fail .badOp)
  else if len ≠ LEN_BC then .next (s.fail .decode)
  else .next ({ s with td := s.td.takeBroadcast d }.respond .ok 0)

end Sys2Proof.Machine
end

