-- ==== Sys2Proof/Machine/Scheduler.lean ====
section
/-! DEFINITION. The alert scheduler (43_alert_scheduler.md R170 to R177). -/

namespace Sys2Proof.Machine

open Config

/-- The scheduler's registers after AS.INIT (R170). -/
def AsState.initialised (sch : AsState) (now : Time) : AsState :=
  { sch with
    prio := if sch.CFG_CHIME_EN then .startupChime else .none
    duty_fired := false
    duty_last := 0
    lowv_fired := false
    lowv_last := 0
    tone_last := now
    sch_init := true }

/-- The startup chime queued, if it is enabled (R170). -/
def State.queueChime (s : State) : State :=
  if s.sch.CFG_CHIME_EN then s.emit (.toneEnqueue .startupChime) else s

/-- AS.INIT: initialise the scheduler and queue the startup chime (R170). -/
def execAsInit (s : State) : Result :=
  if s.sch.sch_init then .next (s.fail .already)
  else
    let queued := s.queueChime
    .next ({ queued with sch := s.sch.initialised s.now }.respond .ok 0)

/-- Step 1 of a tick: a drive pulse if due (R172). -/
def State.drivePulse (s : State) : State :=
  if pulseDue s then
    { s with sch := { s.sch with tone_last := s.now }, outs := .toneTick :: s.outs }
  else s

/-- Step 2 of a tick: idle detection on the one sample of `tone_busy()` (R173). -/
def State.detectIdle (s : State) : State :=
  if s.port.tone_busy then s else { s with sch := { s.sch with prio := .none } }

/-- Step 3 of a tick: the duty-cycle condition (R174). -/
def State.dutyStep (s : State) : State :=
  if dutyFires s then
    { s with
      sch := { s.sch with prio := .dutyCycle, duty_last := s.now, duty_fired := true }
      outs := .toneEnqueue .singleBeep :: s.outs }
  else s

/-- Step 4 of a tick: the low-voltage condition (R175). -/
def State.lowvStep (s : State) : State :=
  if lowvFires s then
    { s with
      sch := { s.sch with prio := .lowVoltage, lowv_last := s.now, lowv_fired := true }
      outs := .toneEnqueue .descending :: s.outs }
  else s

/-- The pattern `q` of a tick: step 4's if it fires, else step 3's, else 0 (R171). -/
def tickPattern (duty lowv : Bool) : BitVec 2 := if lowv then 2 else if duty then 1 else 0

/-- The response value of a tick, `pulse * 4 + q` (R171). -/
def tickValue (pulse : Bool) (q : BitVec 2) : Dword :=
  BitVec.ofNat 64 ((if pulse then 4 else 0) + q.toNat)

/-- AS.TICK: one scheduler tick, its four steps in the fixed order (R171). -/
def execAsTick (s : State) : Result :=
  if !s.sch.sch_init then .next (s.fail .notInit)
  else
    let s2 := s.drivePulse.detectIdle
    let s3 := s2.dutyStep
    let s4 := s3.lowvStep
    .next (s4.respond .ok (tickValue (pulseDue s) (tickPattern (dutyFires s2) (lowvFires s3))))

end Sys2Proof.Machine
end

