-- ==== Sys2Proof/Machine/Csr.lean ====
section
/-! DEFINITION. NOP and the control and status registers (10_state.md R47 to R49, 44_host_and_csr.md R200 to R202). -/

namespace Sys2Proof.Machine

open Config

/-- The registers of the CSR space (R47). -/
inductive Csr where
  | CFG_DUTY_THR | CFG_VOLT_THR | CFG_DUTY_CD | CFG_LOWV_CD | CFG_CHIME_EN | CFG_PRES_THR
  | REQ_DEST | REQ_TAG | REQ_LEN | REQ_PAY
  | RE_STATUS | RE_POLLS | RE_T0
  | SNAP_DUTY | SNAP_ERPM | SNAP_VOLT | SNAP_BAL_STATUS | SNAP_SENS_A | SNAP_SENS_B | SNAP_VALID
  | BC_CH0 | BC_CH1 | BC_CH2 | BC_AUX | BC_PRESENCE
  | AS_STATUS | AS_DUTY_LAST | AS_LOWV_LAST | AS_TONE_LAST
  deriving DecidableEq, Repr

/-- The numbers of R47; 0x05 and 0x28 to 0x2C are implemented only where `HAS_BCAST` is true. -/
def csrOf (hasBcast : Bool) (num : Byte) : Option Csr :=
  match num.toNat with
  | 0x00 => some .CFG_DUTY_THR
  | 0x01 => some .CFG_VOLT_THR
  | 0x02 => some .CFG_DUTY_CD
  | 0x03 => some .CFG_LOWV_CD
  | 0x04 => some .CFG_CHIME_EN
  | 0x05 => if hasBcast then some .CFG_PRES_THR else none
  | 0x08 => some .REQ_DEST
  | 0x09 => some .REQ_TAG
  | 0x0A => some .REQ_LEN
  | 0x0B => some .REQ_PAY
  | 0x10 => some .RE_STATUS
  | 0x11 => some .RE_POLLS
  | 0x12 => some .RE_T0
  | 0x20 => some .SNAP_DUTY
  | 0x21 => some .SNAP_ERPM
  | 0x22 => some .SNAP_VOLT
  | 0x23 => some .SNAP_BAL_STATUS
  | 0x24 => some .SNAP_SENS_A
  | 0x25 => some .SNAP_SENS_B
  | 0x26 => some .SNAP_VALID
  | 0x28 => if hasBcast then some .BC_CH0 else none
  | 0x29 => if hasBcast then some .BC_CH1 else none
  | 0x2A => if hasBcast then some .BC_CH2 else none
  | 0x2B => if hasBcast then some .BC_AUX else none
  | 0x2C => if hasBcast then some .BC_PRESENCE else none
  | 0x30 => some .AS_STATUS
  | 0x31 => some .AS_DUTY_LAST
  | 0x32 => some .AS_LOWV_LAST
  | 0x33 => some .AS_TONE_LAST
  | _ => none

/-- One status bit as a 1-bit vector. -/
def bit (b : Bool) : BitVec 1 := if b then 1 else 0

/-- `RE_STATUS`, bits 63:0 (R48). -/
def reStatus (re : ReState) : Dword :=
  (0#10 ++ re.buf_len ++ re.hdr_b1 ++ re.hdr_b0 ++ re.exp_len ++ 0#2 ++ re.filled_len ++ 0#5 ++
    bit re.hdr_seen ++ bit re.buf_valid ++ bit re.re_busy : BitVec 64)

/-- `SNAP_VALID`, bits 2:0 (R49). -/
def snapValid (td : TdState) : BitVec 3 :=
  bit td.bc_valid ++ bit td.snap_bal_valid ++ bit td.snap_rt_valid

/-- `AS_STATUS`, bits 4:0 (R49). -/
def asStatus (sch : AsState) : BitVec 5 :=
  bit sch.lowv_fired ++ bit sch.duty_fired ++ bit sch.sch_init ++ sch.prio.code

/-- The value of a register, zero-extended to 64 bits (R47, R201). -/
def csrValue (s : State) : Csr → Dword
  | .CFG_DUTY_THR => s.sch.CFG_DUTY_THR.setWidth 64
  | .CFG_VOLT_THR => s.sch.CFG_VOLT_THR.setWidth 64
  | .CFG_DUTY_CD => s.sch.CFG_DUTY_CD.setWidth 64
  | .CFG_LOWV_CD => s.sch.CFG_LOWV_CD.setWidth 64
  | .CFG_CHIME_EN => (bit s.sch.CFG_CHIME_EN).setWidth 64
  | .CFG_PRES_THR => s.td.CFG_PRES_THR.setWidth 64
  | .REQ_DEST => s.re.REQ_DEST.setWidth 64
  | .REQ_TAG => s.re.REQ_TAG.setWidth 64
  | .REQ_LEN => s.re.REQ_LEN.setWidth 64
  | .REQ_PAY => s.re.REQ_PAY.setWidth 64
  | .RE_STATUS => reStatus s.re
  | .RE_POLLS => (BitVec.ofNat 32 s.re.re_polls).setWidth 64
  | .RE_T0 => s.re.re_t0.setWidth 64
  | .SNAP_DUTY => s.td.snap_duty.setWidth 64
  | .SNAP_ERPM => s.td.snap_erpm.setWidth 64
  | .SNAP_VOLT => s.td.snap_volt.setWidth 64
  | .SNAP_BAL_STATUS => s.td.snap_bal_status.setWidth 64
  | .SNAP_SENS_A => s.td.snap_sens_a.setWidth 64
  | .SNAP_SENS_B => s.td.snap_sens_b.setWidth 64
  | .SNAP_VALID => (snapValid s.td).setWidth 64
  | .BC_CH0 => s.td.bc_ch0.setWidth 64
  | .BC_CH1 => s.td.bc_ch1.setWidth 64
  | .BC_CH2 => s.td.bc_ch2.setWidth 64
  | .BC_AUX => s.td.bc_aux.setWidth 64
  | .BC_PRESENCE => (bit s.td.bc_presence).setWidth 64
  | .AS_STATUS => (asStatus s.sch).setWidth 64
  | .AS_DUTY_LAST => s.sch.duty_last.setWidth 64
  | .AS_LOWV_LAST => s.sch.lowv_last.setWidth 64
  | .AS_TONE_LAST => s.sch.tone_last.setWidth 64

/-- The state after `csr[n] <- v[w-1:0]`, or none where the register is read-only (R47, R202). -/
def csrStore (s : State) (v : Dword) : Csr → Option State
  | .CFG_DUTY_THR => some { s with sch := { s.sch with CFG_DUTY_THR := v.setWidth 16 } }
  | .CFG_VOLT_THR => some { s with sch := { s.sch with CFG_VOLT_THR := v.setWidth 16 } }
  | .CFG_DUTY_CD => some { s with sch := { s.sch with CFG_DUTY_CD := v.setWidth 32 } }
  | .CFG_LOWV_CD => some { s with sch := { s.sch with CFG_LOWV_CD := v.setWidth 32 } }
  | .CFG_CHIME_EN => some { s with sch := { s.sch with CFG_CHIME_EN := v.getLsbD 0 } }
  | .CFG_PRES_THR => some { s with td := { s.td with CFG_PRES_THR := v.setWidth 16 } }
  | .REQ_DEST => some { s with re := { s.re with REQ_DEST := v.setWidth 8 } }
  | .REQ_TAG => some { s with re := { s.re with REQ_TAG := v.setWidth 8 } }
  | .REQ_LEN => some { s with re := { s.re with REQ_LEN := v.setWidth 3 } }
  | .REQ_PAY => some { s with re := { s.re with REQ_PAY := v.setWidth 56 } }
  | .RE_STATUS => none
  | .RE_POLLS => none
  | .RE_T0 => none
  | .SNAP_DUTY => none
  | .SNAP_ERPM => none
  | .SNAP_VOLT => none
  | .SNAP_BAL_STATUS => none
  | .SNAP_SENS_A => none
  | .SNAP_SENS_B => none
  | .SNAP_VALID => none
  | .BC_CH0 => none
  | .BC_CH1 => none
  | .BC_CH2 => none
  | .BC_AUX => none
  | .BC_PRESENCE => none
  | .AS_STATUS => none
  | .AS_DUTY_LAST => none
  | .AS_LOWV_LAST => none
  | .AS_TONE_LAST => none

/-- NOP: nothing (R200). -/
def execNop (s : State) : Result := .next (s.respond .ok 0)

/-- CSR.RD: read a control or status register (R201). -/
def execCsrRd (num : Byte) (s : State) : Result :=
  match csrOf s.cfg.HAS_BCAST num with
  | none => .next (s.fail .badReg)
  | some r => .next (s.respond .ok (csrValue s r))

/-- CSR.WR: write a control register (R202). -/
def execCsrWr (num : Byte) (v : Dword) (s : State) : Result :=
  match csrOf s.cfg.HAS_BCAST num with
  | none => .next (s.fail .badReg)
  | some r =>
    match csrStore s v r with
    | none => .next (s.fail .readOnly)
    | some t => .next (t.respond .ok 0)

end Sys2Proof.Machine
end

