-- ==== Sys2Proof/Machine/Dispatch.lean ====
section
/-! DEFINITION. One arm per instruction of the operation set (30_encoding.md R90). -/

namespace Sys2Proof.Machine

def exec (i : Instr) (s : State) : Host.Outcome State Fault Refusal :=
  match i with
  | .reStart sel => Sys2Proof.Machine.execReStart sel s
  | .txReq => Sys2Proof.Machine.execTxReq s
  | .txReqRt => Sys2Proof.Machine.execTxReqRt s
  | .txReqBal => Sys2Proof.Machine.execTxReqBal s
  | .rePoll => Sys2Proof.Machine.execRePoll s
  | .rxNone => Sys2Proof.Machine.execRxNone s
  | .rxFill offset payload => Sys2Proof.Machine.execRxFill offset payload s
  | .rxHdr b0 b1 expLen rest => Sys2Proof.Machine.execRxHdr b0 b1 expLen rest s
  | .rxIgn f => Sys2Proof.Machine.execRxIgn f s
  | .reEnd => Sys2Proof.Machine.execReEnd s
  | .reRd index => Sys2Proof.Machine.execReRd index s
  | .tdDecode tag => Sys2Proof.Machine.execTdDecode tag s
  | .msgRt => Sys2Proof.Machine.execMsgRt s
  | .msgBal => Sys2Proof.Machine.execMsgBal s
  | .tdBcast len d => Sys2Proof.Machine.execTdBcast len d s
  | .asInit => Sys2Proof.Machine.execAsInit s
  | .asTick => Sys2Proof.Machine.execAsTick s
  | .nop => Sys2Proof.Machine.execNop s
  | .csrWr num value => Sys2Proof.Machine.execCsrWr num value s
  | .csrRd num => Sys2Proof.Machine.execCsrRd num s

end Sys2Proof.Machine
end

