-- ==== Sys2Proof/Machine/Present.lean ====
section
/-! DEFINITION. A form of the operation table presented as the next operation (log 10, 11). -/

namespace Sys2Proof.Machine

open Config

/-- A quiet sample at the time and busy signal the ports hold. -/
def State.nextPorts (s : State) (cmd : Option (BitVec 80)) : Ports where
  rst := false
  now_ms := s.port.now_ms
  cmd := cmd
  tone_busy := s.port.tone_busy

/-- The host presents a command word at the next operation. -/
def State.presentCommand (s : State) (w : BitVec 80) : State :=
  { s with script := s.nextPorts (some w) :: s.script }

/-- A collection in progress since now with no poll made, whose sequencer has the next turn. -/
def State.presentPoll (s : State) : State :=
  { s with
    script := s.nextPorts none :: s.script
    re :=
      { s.re with
        re_busy := true
        buf_valid := false
        buf_len := 0
        re_polls := 0
        re_t0 := s.port.now_ms } }

/-- A validated buffer of a tag and a length: first byte the tag, the others 0x00. -/
def ReState.shaped (re : ReState) (tag : Byte) (len : BitVec 6) : ReState :=
  ((re.fill 0 (tag :: List.replicate (len.toNat - 1) 0)).header 0 0 (len.setWidth 16)).endCycle

/-- A form of the operation table as the next operation: a command on the host port; an answer in the
transport of a running collection; RE.START for the frame it emits; TD.DECODE of a validated buffer for the
shape it has; a sequencer step, at its poll bound for RE.END. The table's identifiers and tags are P0's. -/
def State.present (s : State) : Code → State
  | .command w => s.presentCommand w
  | .answer a => { s.presentPoll with cfg := p0, rxAnswers := RxPort.ofFrame a :: s.rxAnswers }
  | .request sel => ({ s with cfg := p0 }).presentCommand (commandWord 0x10 sel 0)
  | .shape tag len =>
    { s.clearCycle.presentCommand (commandWord 0x20 tag 0) with
      cfg := p0
      re := s.clearCycle.re.shaped tag len }
  | .sequencer bound =>
    if bound then
      { s.presentPoll with re := { s.presentPoll.re with re_polls := s.cfg.MAX_POLLS } }
    else s.presentPoll

end Sys2Proof.Machine
end

