-- ==== Sys2Proof/Machine/Step.lean ====
section
/-! DEFINITION. One operation of the block in the total order of 20_memory.md R70, and where the host's table words
are presented. -/

namespace Sys2Proof.Machine

open Config

/-- One operation: the next sample of the input ports selects reset, a host command, a step of the RE
sequencer, or nothing (R15, R70, R240). The order of ready operations is the script's: DESIGN CHOICE (log 3); an idle
sample changes nothing else: DEDUCED (log 15). -/
def step (s : State) : Host.Outcome State Fault Refusal :=
  match s.sample.selected with
  | .reset => .next s.sample.applyReset
  | .run i => exec i s.sample
  | .undefinedOp => .next (s.sample.fail .badOp)
  | .idle => .next s.sample

/-- The state with the instruction of a table word where the next step takes its operation from (log 10, 11). -/
def State.withFetchWord (s : State) (nbits w : Nat) : State :=
  match tableCode nbits w with
  | some c => s.present c
  | none => s

end Sys2Proof.Machine
end

