-- ==== Sys2Proof/WellFormed.lean ====
section
/-! DEFINITION. Which instruction terms a form of the spec can select (30_encoding.md R93, R95 to R97). -/

namespace Sys2Proof

open Config

/-- A term is well formed if its operands fit its format: a fill fragment carries 0 to 7 payload bytes
(R96), a header frame has at most 4 bytes after its length field (R97), an ignored frame is one that is
neither (R95). Every other operand is bounded by its type. -/
def WellFormed (p : Params) : Instr → Bool
  | .rxFill _ payload => payload.length ≤ 7
  | .rxHdr _ _ _ rest => rest.length ≤ 4
  | .rxIgn f =>
    !(f.id == fillId p && 1 ≤ f.length.toNat && f.length.toNat ≤ 8) &&
      !(f.id == hdrId p && 4 ≤ f.length.toNat && f.length.toNat ≤ 8)
  | .reStart _ => true
  | .txReq => true
  | .txReqRt => true
  | .txReqBal => true
  | .rePoll => true
  | .rxNone => true
  | .reEnd => true
  | .reRd _ => true
  | .tdDecode _ => true
  | .msgRt => true
  | .msgBal => true
  | .tdBcast _ _ => true
  | .asInit => true
  | .asTick => true
  | .nop => true
  | .csrWr _ _ => true
  | .csrRd _ => true

end Sys2Proof
end

