-- ==== Sys2Proof/Safety.lean ====
section
/-! DEFINITION. The terms claims are stated in: the invariants of 10_state.md R50, the host-visible views of R47 to
R49, the frames of R98, and the shape of an uninterrupted collection. -/

namespace Sys2Proof.Machine

open Config

/-- The invariants of R50 that hold after reset and after every operation, with the constraints of R9, the
canonical form of the buffer, and the cleared value of an index that was never filled (R131 d, D10). -/
structure State.Inv (s : State) : Prop where
  /-- R9. -/
  params_ok : s.cfg.ok
  /-- The buffer is in canonical form. -/
  buf_wf : s.re.buf.wf = true
  /-- D10: an unfilled index reads 0x00. -/
  unfilled_zero : ∀ (i : Nat) (h : i < BUF_CAP), s.re.filled[i] = false → s.re.buf.read i = 0
  /-- I1: `filled_len = popcount(filled)`. -/
  filled_count : s.re.filled_len.toNat = s.re.filled.count true
  /-- I1: `filled_len <= 50`. -/
  filled_le : s.re.filled_len.toNat ≤ BUF_CAP
  /-- I2. -/
  busy_invalid : s.re.re_busy = true → s.re.buf_valid = false
  /-- I3. -/
  valid_header : s.re.buf_valid = true → s.re.hdr_seen = true
  /-- I3. -/
  valid_len : s.re.buf_valid = true → s.re.buf_len = s.re.filled_len
  /-- I3. -/
  valid_exp : s.re.buf_valid = true → s.re.buf_len.toNat = s.re.exp_len.toNat
  /-- I3. -/
  valid_exp_le : s.re.buf_valid = true → s.re.exp_len.toNat ≤ BUF_CAP
  /-- I4. -/
  invalid_len : s.re.buf_valid = false → s.re.buf_len = 0
  /-- I5. -/
  no_header : s.re.hdr_seen = false → s.re.exp_len = 0 ∧ s.re.hdr_b0 = 0 ∧ s.re.hdr_b1 = 0
  /-- I6. -/
  polls_le : s.re.re_polls ≤ s.cfg.MAX_POLLS
  /-- I7. -/
  uninit : s.sch.sch_init = false →
    s.sch.prio = .none ∧ s.sch.duty_fired = false ∧ s.sch.lowv_fired = false

/-- `tdiff(a, b)` as a number, `(a - b) mod 2^32` (R12). -/
def elapsed (a b : Time) : Nat := (a.toNat + 2 ^ 32 - b.toNat) % 2 ^ 32

/-- One status bit as a number. -/
def flag (b : Bool) : Nat := if b then 1 else 0

/-- Byte `k` of a 64-bit port as a number, bits `[63-8k : 56-8k]` (R53, R62). -/
def portByte (d : Dword) (k : Nat) : Nat := d.toNat / 2 ^ (56 - 8 * k) % 256

/-- Send ports that carry a frame with the identifier of R94, `n` data bytes given as numbers, and 0x00 after them
(R53, R92, R98). -/
def FrameIs (x : TxPort) (tag dest : Byte) (n : Nat) (byte : Nat → Nat) : Prop :=
  x.tx_id.toNat = 0x80000000 + tag.toNat * 256 + dest.toNat ∧ x.tx_len.toNat = n ∧
    ∀ k, k < 8 → portByte x.tx_data k = if k < n then byte k else 0

/-- The frame TX.REQ emits in a state: byte `k` is `REQ_PAY[55-8k : 48-8k]` (R98, R32). -/
def OwnRequest (s : State) (x : TxPort) : Prop :=
  FrameIs x s.re.REQ_TAG s.re.REQ_DEST s.re.REQ_LEN.toNat
    (fun k => s.re.REQ_PAY.toNat / 2 ^ (48 - 8 * k) % 256)

/-- The frame TX.REQ_RT emits: `[OWN_ID, 0x00, 0x32, 0x00, 0x00, 0x81, 0xC3]` (R98). -/
def RealtimeRequest (s : State) (x : TxPort) : Prop :=
  FrameIs x s.cfg.TAG_REQ_RT s.cfg.PEER_ID 7
    (fun k => [s.cfg.OWN_ID.toNat, 0x00, 0x32, 0x00, 0x00, 0x81, 0xC3].getD k 0)

/-- The frame TX.REQ_BAL emits: `[OWN_ID, 0x00, 0x4F]` (R98). -/
def BalanceRequest (s : State) (x : TxPort) : Prop :=
  FrameIs x s.cfg.TAG_REQ_BAL s.cfg.PEER_ID 3 (fun k => [s.cfg.OWN_ID.toNat, 0x00, 0x4F].getD k 0)

/-- A 16-bit big-endian field of the buffer as an unsigned number (R60). -/
def field16 (m : Memory) (i : Nat) : Nat := (m.read i).toNat * 256 + (m.read (i + 1)).toNat

/-- A 32-bit big-endian field of the buffer as an unsigned number (R60). -/
def field32 (m : Memory) (i : Nat) : Nat := field16 m i * 65536 + field16 m (i + 2)

/-- An `n`-bit pattern as a two's-complement integer (R12). -/
def signed (n : Nat) (u : Nat) : Int := if u < 2 ^ (n - 1) then (u : Int) else (u : Int) - 2 ^ n

/-- The CSR numbers of the broadcast part, implemented only where `HAS_BCAST` is true (R47). -/
def bcastNumbers : List Nat := [0x05, 0x28, 0x29, 0x2A, 0x2B, 0x2C]

/-- The CSR map of R47 to R49: every number with its value in a state. -/
def csrTable (s : State) : List (Nat × Nat) :=
  [(0x00, s.sch.CFG_DUTY_THR.toNat), (0x01, s.sch.CFG_VOLT_THR.toNat),
    (0x02, s.sch.CFG_DUTY_CD.toNat), (0x03, s.sch.CFG_LOWV_CD.toNat),
    (0x04, flag s.sch.CFG_CHIME_EN), (0x05, s.td.CFG_PRES_THR.toNat),
    (0x08, s.re.REQ_DEST.toNat), (0x09, s.re.REQ_TAG.toNat), (0x0A, s.re.REQ_LEN.toNat),
    (0x0B, s.re.REQ_PAY.toNat),
    (0x10, flag s.re.re_busy + 2 * flag s.re.buf_valid + 4 * flag s.re.hdr_seen +
      2 ^ 8 * s.re.filled_len.toNat + 2 ^ 16 * s.re.exp_len.toNat + 2 ^ 32 * s.re.hdr_b0.toNat +
      2 ^ 40 * s.re.hdr_b1.toNat + 2 ^ 48 * s.re.buf_len.toNat),
    (0x11, s.re.re_polls), (0x12, s.re.re_t0.toNat),
    (0x20, s.td.snap_duty.toNat), (0x21, s.td.snap_erpm.toNat), (0x22, s.td.snap_volt.toNat),
    (0x23, s.td.snap_bal_status.toNat), (0x24, s.td.snap_sens_a.toNat),
    (0x25, s.td.snap_sens_b.toNat),
    (0x26, flag s.td.snap_rt_valid + 2 * flag s.td.snap_bal_valid + 4 * flag s.td.bc_valid),
    (0x28, s.td.bc_ch0.toNat), (0x29, s.td.bc_ch1.toNat), (0x2A, s.td.bc_ch2.toNat),
    (0x2B, s.td.bc_aux.toNat), (0x2C, flag s.td.bc_presence),
    (0x30, s.sch.prio.code.toNat + 4 * flag s.sch.sch_init + 8 * flag s.sch.duty_fired +
      16 * flag s.sch.lowv_fired),
    (0x31, s.sch.duty_last.toNat), (0x32, s.sch.lowv_last.toNat), (0x33, s.sch.tone_last.toNat)]

/-- The read-write registers of R47, number and width. -/
def rwTable : List (Nat × Nat) :=
  [(0x00, 16), (0x01, 16), (0x02, 32), (0x03, 32), (0x04, 1), (0x05, 16), (0x08, 8), (0x09, 8),
    (0x0A, 3), (0x0B, 56)]

/-- A CSR number is implemented (R47). -/
def Implemented (s : State) (n : Nat) : Prop :=
  n ∈ (csrTable s).map Prod.fst ∧ (n ∈ bcastNumbers → s.cfg.HAS_BCAST = true)

/-- The nine host commands of R101. -/
def hostCommand : Instr → Bool
  | .reStart _ => true
  | .reRd _ => true
  | .tdDecode _ => true
  | .tdBcast _ _ => true
  | .asInit => true
  | .asTick => true
  | .nop => true
  | .csrWr _ _ => true
  | .csrRd _ => true
  | .txReq => false
  | .txReqRt => false
  | .txReqBal => false
  | .rePoll => false
  | .rxNone => false
  | .rxFill _ _ => false
  | .rxHdr _ _ _ _ => false
  | .rxIgn _ => false
  | .reEnd => false
  | .msgRt => false
  | .msgBal => false

/-- An output is a response of the host port. -/
def isResponse : Output → Bool
  | .respond _ _ => true
  | .tx _ => false
  | .rxPoll => false
  | .toneEnqueue _ => false
  | .toneTick => false

/-- An output queues a pattern at the Tone Driver. -/
def isEnqueue : Output → Bool
  | .toneEnqueue _ => true
  | .respond _ _ => false
  | .tx _ => false
  | .rxPoll => false
  | .toneTick => false

/-- A sample that gives the turn to the RE sequencer: no reset, no command (R122; log 3). -/
abbrev Ports.sequencerTurn (p : Ports) : Prop := p.rst = false ∧ p.cmd = none

/-- A sample with an RE.START of a legal selector, which abandons the cycle in progress (R120). -/
def Ports.startsCycle (cfg : Params) (p : Ports) : Prop :=
  p.rst = false ∧
    ∃ w sel, p.cmd = some w ∧ decode cfg (.command w) = .ok (.reStart sel) ∧ sel.toNat ≤ 2

/-- `run` is an infinite run: operation `k` samples the inputs `env k`, and the step leads to the next state. The
inputs are anybody's: host commands, reset and the sequencer's turns fall between one another in any order (R70). -/
def Execution (env : Nat → Ports) (run : Nat → State) : Prop :=
  ∀ k, step { run k with script := env k :: (run k).script } = .next (run (k + 1))

/-- Weak fairness of the RE sequencer: if its step is enabled from some operation on for ever (`re_busy = 1`, R122),
it gets a turn (R133, R265). -/
def SequencerFair (env : Nat → Ports) (run : Nat → State) : Prop :=
  ∀ k, (∀ j, k ≤ j → (run j).re.re_busy = true) → ∃ j, k ≤ j ∧ (env j).sequencerTurn

/-- How many of the first `k` operations are the sequencer's turns. -/
def turnsBefore (env : Nat → Ports) (k : Nat) : Nat :=
  (List.range k).countP fun j => decide (env j).sequencerTurn

/-- The answers `as` deliver the `n` bytes `data` and nothing else: every fill fragment aims only at indices below
`n` and carries the byte `data` gives, every index below `n` is aimed at, every header declares `n`, and there is
one (R134 P-a). -/
structure Delivers (p : Params) (as : List (Option Frame)) (n : Nat) (data : Nat → Byte) : Prop where
  fills : ∀ a ∈ as, ∀ o payload, classify p a = .fill o payload →
    ∀ (k : Nat) (h : k < payload.length), o.toNat + k < n ∧ payload[k] = data (o.toNat + k)
  covers : ∀ i < n, ∃ a ∈ as, ∃ o payload, classify p a = .fill o payload ∧
    o.toNat ≤ i ∧ i < o.toNat + payload.length
  headers : ∀ a ∈ as, ∀ b0 b1 len rest, classify p a = .header b0 b1 len rest → len.toNat = n
  header : ∃ a ∈ as, ∃ b0 b1 len rest, classify p a = .header b0 b1 len rest

end Sys2Proof.Machine
end

