-- ==== Sys2Proof/Certificates/Slice0/Obligations.lean ====
section
/-! DEFINITION. The statements about LSLM-CORE: what each operation does and leaves alone, encodings, invariants and
whole-machine rules. -/

open Sys2Proof Sys2Proof.Machine Sys2Proof.Config

/-! ### Reassembly engine -/

/-- R120, R121: RE.START with a selector above 2 answers `E_BADSEL` and does nothing else; otherwise it clears
the cycle-scoped state, samples the time, emits the one request frame of its selector, sets `re_busy`, and leaves
everything else alone. -/
def Obligations.ReStartBeginsCycle : Prop :=
  ∀ (s : State) (sel : Byte),
    (2 < sel.toNat →
      exec (.reStart sel) s = .next { s with outs := .respond .badSel 0 :: s.outs }) ∧
    (sel.toNat ≤ 2 →
      ∃ t x, exec (.reStart sel) s = .next t ∧
        t = { s with re := t.re, outs := .respond .ok 0 :: .tx x :: s.outs } ∧
        (sel.toNat = 0 → OwnRequest s x) ∧
        (sel.toNat = 1 → RealtimeRequest s x) ∧
        (sel.toNat = 2 → BalanceRequest s x) ∧
        (∀ i, t.re.buf.read i = 0) ∧
        (∀ (i : Nat) (h : i < 50), t.re.filled[i] = false) ∧
        t.re =
          { s.re with
            re_busy := true
            buf := t.re.buf
            filled := t.re.filled
            filled_len := 0
            hdr_seen := false
            exp_len := 0
            hdr_b0 := 0
            hdr_b1 := 0
            re_t0 := s.port.now_ms
            re_polls := 0
            buf_valid := false
            buf_len := 0 })

/-- R98: the three request frames, bit-exact on the send ports, and nothing else changed by emitting one. -/
def Obligations.RequestFramesAreBitExact : Prop :=
  ∀ s : State,
    (∃ x, OwnRequest s x ∧ exec .txReq s = .next { s with outs := .tx x :: s.outs }) ∧
    (∃ x, RealtimeRequest s x ∧ exec .txReqRt s = .next { s with outs := .tx x :: s.outs }) ∧
    (∃ x, BalanceRequest s x ∧ exec .txReqBal s = .next { s with outs := .tx x :: s.outs })

/-- R122: RE.POLL is not enabled with `re_busy = 0`; at a bound it is RE.END and polls nothing; otherwise it counts
one poll, takes one answer, does what the answer's class does, and ends the cycle in the same step if a header has
arrived and `filled_len >= exp_len`. -/
def Obligations.PollTakesOneAnswerUnlessBounded : Prop :=
  ∀ s : State,
    (s.re.re_busy = false → exec .rePoll s = .next s) ∧
    (s.re.re_busy = true →
      (s.cfg.MAX_POLLS ≤ s.re.re_polls ∨ s.cfg.WINDOW_MS ≤ elapsed s.port.now_ms s.re.re_t0) →
      ∃ t, exec .reEnd s = .next t ∧ exec .rePoll s = .next t) ∧
    (s.re.re_busy = true → s.re.re_polls < s.cfg.MAX_POLLS →
      elapsed s.port.now_ms s.re.re_t0 < s.cfg.WINDOW_MS →
      ∃ u, exec (classify s.cfg s.nextAnswer).toInstr
          { s.pollTransport with re := { s.re with re_polls := s.re.re_polls + 1 } } = .next u ∧
        (u.re.hdr_seen = true ∧ u.re.exp_len.toNat ≤ u.re.filled_len.toNat →
          ∃ t, exec .reEnd u = .next t ∧ exec .rePoll s = .next t) ∧
        (¬(u.re.hdr_seen = true ∧ u.re.exp_len.toNat ≤ u.re.filled_len.toNat) →
          exec .rePoll s = .next u)) ∧
    (∀ a rest, s.rxAnswers = a :: rest →
      s.nextAnswer = a.frame ∧ s.pollTransport = { s with rxAnswers := rest, outs := .rxPoll :: s.outs })

/-- R95, with the operands of R96 and R97: the class of a received frame is decided by its 32-bit identifier and its
length alone, and each class has its operands. -/
def Obligations.ReceiveClassification : Prop :=
  ∀ (p : Params), p.ok → ∀ f : Frame,
    let isFill := f.id.toNat = 0x80000000 + p.TAG_FILL.toNat * 256 + p.OWN_ID.toNat ∧
      1 ≤ f.length.toNat ∧ f.length.toNat ≤ 8
    let isHdr := f.id.toNat = 0x80000000 + p.TAG_HDR.toNat * 256 + p.OWN_ID.toNat ∧
      4 ≤ f.length.toNat ∧ f.length.toNat ≤ 8
    (isFill → ∃ payload, decode p (.answer (some f)) = .ok (.rxFill f.data[0] payload) ∧
      payload.length + 1 = f.length.toNat ∧
      ∀ (k : Nat) (h : k < payload.length) (h' : 1 + k < 8), payload[k] = f.data[1 + k]) ∧
    (isHdr → ∃ expLen rest,
      decode p (.answer (some f)) = .ok (.rxHdr f.data[0] f.data[1] expLen rest) ∧
      expLen.toNat = f.data[2].toNat * 256 + f.data[3].toNat) ∧
    (¬isFill → ¬isHdr → decode p (.answer (some f)) = .ok (.rxIgn f)) ∧
    ¬(isFill ∧ isHdr)

/-- R123: RX.NONE has no effect beyond the poll's, and is what the absence of a frame decodes to. -/
def Obligations.NoFrameHasNoEffect : Prop :=
  ∀ (p : Params) (s : State), decode p (.answer none) = .ok .rxNone ∧ exec .rxNone s = .next s

/-- R127: an ignored frame has no effect beyond the poll's, whatever its contents. -/
def Obligations.IgnoredFrameHasNoEffect : Prop :=
  ∀ (f : Frame) (s : State), exec (.rxIgn f) s = .next s

/-- R65, and R64's bounds: payload byte `k` lands at index `offset + k`, computed without wrap-around, if that index
is below 50, and is dropped otherwise; no other index changes, and nothing but the buffer and its fill tracking. -/
def Obligations.FillStoresOnlyInBoundsBytes : Prop :=
  ∀ (s : State) (o : Byte) (payload : List Byte),
    ∃ t, exec (.rxFill o payload) s = .next t ∧
      (∀ (k : Nat) (h : k < payload.length), o.toNat + k < 50 →
        t.re.buf.read (o.toNat + k) = payload[k]) ∧
      (∀ a, (a < o.toNat ∨ o.toNat + payload.length ≤ a ∨ 50 ≤ a) →
        t.re.buf.read a = s.re.buf.read a) ∧
      (∀ (a : Nat) (h : a < 50), t.re.filled[a] =
        (s.re.filled[a] || decide (o.toNat ≤ a ∧ a < o.toNat + payload.length))) ∧
      t =
        { s with
          re :=
            { s.re with
              buf := t.re.buf
              filled := t.re.filled
              filled_len := t.re.filled_len } }

/-- R24: RX.FILL keeps `filled_len` equal to the count of distinct indices written, and never lowers it. -/
def Obligations.FilledLenCountsDistinctIndices : Prop :=
  ∀ (s : State) (o : Byte) (payload : List Byte),
    s.re.filled_len.toNat = s.re.filled.count true →
    ∃ t, exec (.rxFill o payload) s = .next t ∧
      t.re.filled_len.toNat = t.re.filled.count true ∧
      s.re.filled_len.toNat ≤ t.re.filled_len.toNat

/-- R125 a: a fragment repeated verbatim changes nothing the second time. -/
def Obligations.RepeatedFragmentChangesNothing : Prop :=
  ∀ (s : State) (o : Byte) (payload : List Byte), s.re.buf.wf = true →
    ∃ t, exec (.rxFill o payload) s = .next t ∧ exec (.rxFill o payload) t = .next t

/-- R71: two fragments with disjoint index sets have the same end state in either order. -/
def Obligations.DisjointFragmentsCommute : Prop :=
  ∀ (s : State) (o₁ o₂ : Byte) (p₁ p₂ : List Byte), s.re.buf.wf = true →
    (o₁.toNat + p₁.length ≤ o₂.toNat ∨ o₂.toNat + p₂.length ≤ o₁.toNat) →
    ∃ t₁ t₂ t, exec (.rxFill o₁ p₁) s = .next t₁ ∧ exec (.rxFill o₂ p₂) t₁ = .next t ∧
      exec (.rxFill o₂ p₂) s = .next t₂ ∧ exec (.rxFill o₁ p₁) t₂ = .next t

/-- R126: a header frame is captured over any earlier one of the cycle; nothing else changes, and its bytes after
the length do not matter. -/
def Obligations.HeaderOverwrites : Prop :=
  ∀ (s : State) (b0 b1 : Byte) (expLen : Half) (rest : List Byte),
    exec (.rxHdr b0 b1 expLen rest) s =
      .next
        { s with
          re := { s.re with hdr_b0 := b0, hdr_b1 := b1, exp_len := expLen, hdr_seen := true } }

/-- R130: RE.END publishes the buffer only if a header has arrived and `filled_len` equals the declared length
exactly, clears `re_busy`, and keeps everything else. -/
def Obligations.EndPublishesOnlyExactLength : Prop :=
  ∀ s : State,
    (s.re.hdr_seen = true ∧ s.re.filled_len.toNat = s.re.exp_len.toNat →
      exec .reEnd s =
        .next
          { s with
            re := { s.re with buf_valid := true, buf_len := s.re.filled_len, re_busy := false } }) ∧
    (¬(s.re.hdr_seen = true ∧ s.re.filled_len.toNat = s.re.exp_len.toNat) →
      exec .reEnd s =
        .next { s with re := { s.re with buf_valid := false, buf_len := 0, re_busy := false } })

/-- R131 c: with a declared length above 50 neither the early exit nor the validation can pass. -/
def Obligations.DeclaredLengthAboveCapacityNeverValidates : Prop :=
  ∀ s : State, s.Inv → 50 < s.re.exp_len.toNat →
    complete s.re = false ∧
      ∃ t, exec .reEnd s = .next t ∧ t.re.buf_valid = false ∧ t.re.buf_len = 0 ∧
        t.re.re_busy = false

/-- R132: RE.RD answers one byte of the validated buffer, `E_NODATA` where there is none, `E_RANGE` at or above its
length, in that order of tests; no state changes. -/
def Obligations.ReadByteOfValidatedBuffer : Prop :=
  ∀ (s : State) (i : Byte),
    ((s.re.re_busy = true ∨ s.re.buf_valid = false) →
      exec (.reRd i) s = .next { s with outs := .respond .noData 0 :: s.outs }) ∧
    (s.re.re_busy = false → s.re.buf_valid = true → s.re.buf_len.toNat ≤ i.toNat →
      exec (.reRd i) s = .next { s with outs := .respond .range 0 :: s.outs }) ∧
    (s.re.re_busy = false → s.re.buf_valid = true → i.toNat < s.re.buf_len.toNat →
      ∃ v, exec (.reRd i) s = .next { s with outs := .respond .ok v :: s.outs } ∧
        v.toNat = (s.re.buf.read i.toNat).toNat)

/-- R131 d: an index below the published length that no fragment filled reads 0x00. -/
def Obligations.HoleReadsZero : Prop :=
  ∀ (s : State) (i : Byte) (h : i.toNat < 50), s.Inv → s.re.re_busy = false →
    s.re.buf_valid = true → i.toNat < s.re.buf_len.toNat → s.re.filled[i.toNat] = false →
    exec (.reRd i) s = .next { s with outs := .respond .ok 0 :: s.outs }

/-- R132, R22: while a cycle runs or after it was discarded, no byte of the buffer can be observed: whatever it
holds, RE.RD, TD.DECODE and CSR.RD do and answer the same. -/
def Obligations.DiscardedBufferIsUnobservable : Prop :=
  ∀ (s : State) (m : Memory) (i : Instr),
    (s.re.re_busy = true ∨ s.re.buf_valid = false) →
    ((∃ x, i = .reRd x) ∨ (∃ x, i = .tdDecode x) ∨ (∃ x, i = .csrRd x)) →
    ∃ t, exec i s = .next t ∧
      exec i { s with re := { s.re with buf := m } } =
        .next { t with re := { t.re with buf := m } }

/-! ### Telemetry decoder -/

/-- R150: TD.DECODE tests for a validated buffer, for a tag byte, for the expected tag and for the exact length of
the tag's shape, in that order; a failing test answers its code and writes nothing, success applies the shape. -/
def Obligations.DecodeAgainstExpectedTag : Prop :=
  ∀ (s : State) (tag : Byte), s.cfg.ok →
    ((s.re.re_busy = true ∨ s.re.buf_valid = false) →
      exec (.tdDecode tag) s = .next { s with outs := .respond .noData 0 :: s.outs }) ∧
    (s.re.re_busy = false → s.re.buf_valid = true →
      (¬(s.re.buf_len.toNat = 18 ∧ s.re.buf.read 0 = tag ∧ tag.toNat = 0x32) ∧
        ¬(s.re.buf_len.toNat = 37 ∧ s.re.buf.read 0 = tag ∧ tag = s.cfg.TAG_BAL)) →
      exec (.tdDecode tag) s = .next { s with outs := .respond .decode 0 :: s.outs }) ∧
    (s.re.re_busy = false → s.re.buf_valid = true → s.re.buf_len.toNat = 18 →
      s.re.buf.read 0 = tag → tag.toNat = 0x32 →
      ∃ u, exec .msgRt s = .next u ∧
        exec (.tdDecode tag) s = .next { u with outs := .respond .ok 0 :: s.outs }) ∧
    (s.re.re_busy = false → s.re.buf_valid = true → s.re.buf_len.toNat = 37 →
      s.re.buf.read 0 = tag → tag = s.cfg.TAG_BAL →
      ∃ u, exec .msgBal s = .next u ∧
        exec (.tdDecode tag) s = .next { u with outs := .respond .ok 0 :: s.outs })

/-- R151: MSG.RT writes the three realtime fields, big-endian and signed, and their valid bit, and nothing else. -/
def Obligations.RealtimeShapeFields : Prop :=
  ∀ s : State,
    ∃ t, exec .msgRt s = .next t ∧
      s16 t.td.snap_duty = signed 16 (field16 s.re.buf 9) ∧
      s32 t.td.snap_erpm = signed 32 (field32 s.re.buf 11) ∧
      s16 t.td.snap_volt = signed 16 (field16 s.re.buf 15) ∧
      t =
        { s with
          td :=
            { s.td with
              snap_duty := t.td.snap_duty
              snap_erpm := t.td.snap_erpm
              snap_volt := t.td.snap_volt
              snap_rt_valid := true } }

/-- R152: MSG.BAL writes the three balance fields, big-endian, the sensors signed, and their valid bit, and nothing
else. -/
def Obligations.BalanceShapeFields : Prop :=
  ∀ s : State,
    ∃ t, exec .msgBal s = .next t ∧
      t.td.snap_bal_status.toNat = field16 s.re.buf 25 ∧
      s32 t.td.snap_sens_a = signed 32 (field32 s.re.buf 29) ∧
      s32 t.td.snap_sens_b = signed 32 (field32 s.re.buf 33) ∧
      t =
        { s with
          td :=
            { s.td with
              snap_bal_status := t.td.snap_bal_status
              snap_sens_a := t.td.snap_sens_a
              snap_sens_b := t.td.snap_sens_b
              snap_bal_valid := true } }

/-- R157: the document's worked example: duty cycle 0.8, erpm 0, voltage 50.0, whatever the bytes the example leaves
open. -/
def Obligations.WorkedRealtimeExample : Prop :=
  ∀ s : State, s.re.re_busy = false → s.re.buf_valid = true → s.re.buf_len.toNat = 18 →
    s.re.buf.read 0 = 0x32 → field16 s.re.buf 9 = 0x0320 → field32 s.re.buf 11 = 0 →
    field16 s.re.buf 15 = 0x01F4 →
    ∃ t, exec (.tdDecode 0x32) s = .next t ∧ t.td.dutyCycle = 4 / 5 ∧ t.td.erpm = 0 ∧
      t.td.voltage = 50 ∧ t.td.snap_rt_valid = true ∧ t.outs = .respond .ok 0 :: s.outs

/-- R154, R155: TD.BCAST exists iff `HAS_BCAST`, needs length 8, and writes the four channels, the presence flag of
the new values against the unsigned threshold, strictly, and its valid bit, and nothing else. -/
def Obligations.BroadcastDecode : Prop :=
  ∀ (s : State) (n : Byte) (d : Dword),
    (s.cfg.HAS_BCAST = false →
      exec (.tdBcast n d) s = .next { s with outs := .respond .badOp 0 :: s.outs }) ∧
    (s.cfg.HAS_BCAST = true → n.toNat ≠ 8 →
      exec (.tdBcast n d) s = .next { s with outs := .respond .decode 0 :: s.outs }) ∧
    (s.cfg.HAS_BCAST = true → n.toNat = 8 →
      ∃ t, exec (.tdBcast n d) s = .next t ∧
        t.td.bc_ch0.toNat = d.toNat / 2 ^ 48 ∧
        t.td.bc_ch1.toNat = d.toNat / 2 ^ 32 % 2 ^ 16 ∧
        t.td.bc_ch2.toNat = d.toNat / 2 ^ 16 % 2 ^ 16 ∧
        t.td.bc_aux.toNat = d.toNat % 2 ^ 16 ∧
        (t.td.bc_presence = true ↔
          ((s.td.CFG_PRES_THR.toNat : Int) < s16 t.td.bc_ch0 ∨
            (s.td.CFG_PRES_THR.toNat : Int) < s16 t.td.bc_ch1)) ∧
        t =
          { s with
            td :=
              { s.td with
                bc_ch0 := t.td.bc_ch0
                bc_ch1 := t.td.bc_ch1
                bc_ch2 := t.td.bc_ch2
                bc_aux := t.td.bc_aux
                bc_presence := t.td.bc_presence
                bc_valid := true }
            outs := .respond .ok 0 :: s.outs })

/-- R153: the comparisons on raw integers are exactly those on the document's reals, duty against its threshold
fraction and volts against the threshold voltage. -/
def Obligations.RawComparisonsAreExact : Prop :=
  ∀ (td : TdState) (sch : AsState),
    (dutyExceeds td sch = true ↔
      td.snap_rt_valid = true ∧ sch.CFG_DUTY_THR ≠ 0 ∧ sch.dutyThreshold < |td.dutyCycle|) ∧
    (voltBelow td sch = true ↔
      td.snap_rt_valid = true ∧ sch.CFG_VOLT_THR ≠ 0 ∧ td.voltage < sch.voltThreshold)

/-! ### Alert scheduler -/

/-- R170: the first AS.INIT initialises the scheduler and queues the chime iff it is enabled; a later one answers
`E_ALREADY` and does nothing. -/
def Obligations.SchedulerInitialisation : Prop :=
  ∀ s : State,
    (s.sch.sch_init = true →
      exec .asInit s = .next { s with outs := .respond .already 0 :: s.outs }) ∧
    (s.sch.sch_init = false →
      exec .asInit s =
        .next
          { s with
            sch :=
              { s.sch with
                prio := if s.sch.CFG_CHIME_EN = true then .startupChime else .none
                sch_init := true
                duty_fired := false
                duty_last := 0
                lowv_fired := false
                lowv_last := 0
                tone_last := s.port.now_ms }
            outs := .respond .ok 0 ::
              ((if s.sch.CFG_CHIME_EN = true then [.toneEnqueue .startupChime] else []) ++ s.outs) })

/-- R171 to R175: AS.TICK before AS.INIT answers `E_NOTINIT`; after it, the four steps in their order: the pulse, the
level test on the busy signal, the duty-cycle condition, the low-voltage condition on the priority the third step
left; everything else is kept. -/
def Obligations.TickRunsFourSteps : Prop :=
  ∀ s : State,
    (s.sch.sch_init = false →
      exec .asTick s = .next { s with outs := .respond .notInit 0 :: s.outs }) ∧
    (s.sch.sch_init = true →
      ∃ (pulse duty lowv : Bool) (p₂ p₃ : Priority) (v : Dword),
        (pulse = true ↔ s.cfg.TONE_TICK_MS ≤ elapsed s.port.now_ms s.sch.tone_last) ∧
        p₂ = (if s.port.tone_busy = true then s.sch.prio else .none) ∧
        (duty = true ↔
          s.td.snap_rt_valid = true ∧ s.sch.CFG_DUTY_THR ≠ 0 ∧
            (s.sch.CFG_DUTY_THR.toNat : Int) < |s16 s.td.snap_duty| ∧
            (s.sch.duty_fired = false ∨
              s.sch.CFG_DUTY_CD.toNat ≤ elapsed s.port.now_ms s.sch.duty_last)) ∧
        p₃ = (if duty = true then .dutyCycle else p₂) ∧
        (lowv = true ↔
          s.td.snap_rt_valid = true ∧ s.sch.CFG_VOLT_THR ≠ 0 ∧
            s16 s.td.snap_volt < (s.sch.CFG_VOLT_THR.toNat : Int) ∧
            (s.sch.lowv_fired = false ∨
              s.sch.CFG_LOWV_CD.toNat ≤ elapsed s.port.now_ms s.sch.lowv_last) ∧
            p₃ ≠ .dutyCycle) ∧
        v.toNat = 4 * flag pulse + 2 * flag lowv + flag duty ∧
        exec .asTick s =
          .next
            { s with
              sch :=
                { s.sch with
                  prio := if lowv = true then .lowVoltage else p₃
                  tone_last := if pulse = true then s.port.now_ms else s.sch.tone_last
                  duty_last := if duty = true then s.port.now_ms else s.sch.duty_last
                  duty_fired := s.sch.duty_fired || duty
                  lowv_last := if lowv = true then s.port.now_ms else s.sch.lowv_last
                  lowv_fired := s.sch.lowv_fired || lowv }
              outs := .respond .ok v ::
                ((if lowv = true then [.toneEnqueue .descending] else []) ++
                  (if duty = true then [.toneEnqueue .singleBeep] else []) ++
                  (if pulse = true then [.toneTick] else []) ++ s.outs) })

/-- R176: the admission table: the duty-cycle alert is never blocked by priority; the low-voltage alert is blocked
exactly by an active duty-cycle alert. -/
def Obligations.AdmissionTable : Prop :=
  ∀ p : Priority,
    admits .dutyCycle p = true ∧ (admits .lowVoltage p = true ↔ p ≠ .dutyCycle) ∧
      ∀ c, (admits c p = true ↔ p.code = 0 ∨ c.code.toNat ≤ p.code.toNat)

/-- R177: an alert that has not fired since AS.INIT has no cooldown to wait out; one that has may fire again once at
least the cooldown has passed, modulo 2^32. -/
def Obligations.CooldownTest : Prop :=
  ∀ (fired : Bool) (last cd now : Time),
    cooldownOk fired last cd now = true ↔ fired = false ∨ cd.toNat ≤ elapsed now last

/-- R178: at most one pattern is queued per AS.TICK. -/
def Obligations.AtMostOnePatternPerTick : Prop :=
  ∀ s : State, ∃ t, exec .asTick s = .next t ∧
    t.outs.countP isEnqueue ≤ s.outs.countP isEnqueue + 1

/-- R179: after a tick a priority other than None means that the busy sample was 1 or that an alert fired in this
tick. -/
def Obligations.PriorityMeansBusyOrFired : Prop :=
  ∀ s t : State, s.sch.sch_init = true → exec .asTick s = .next t → t.sch.prio ≠ .none →
    s.port.tone_busy = true ∨ t.outs.countP isEnqueue = s.outs.countP isEnqueue + 1

/-- R181 P-d: with a reading above the threshold at every tick, the duty-cycle alert fires at the first tick after
AS.INIT, and after a firing exactly at the ticks at least its cooldown later. -/
def Obligations.DutyAlertFiresOncePerCooldown : Prop :=
  ∀ s : State, s.sch.sch_init = true → s.td.snap_rt_valid = true → s.sch.CFG_DUTY_THR ≠ 0 →
    (s.sch.CFG_DUTY_THR.toNat : Int) < |s16 s.td.snap_duty| →
    ∃ t, exec .asTick s = .next t ∧
      ((s.sch.duty_fired = false ∨
          s.sch.CFG_DUTY_CD.toNat ≤ elapsed s.port.now_ms s.sch.duty_last) →
        t.outs.count (.toneEnqueue .singleBeep) = s.outs.count (.toneEnqueue .singleBeep) + 1 ∧
        t.sch.duty_fired = true ∧ t.sch.duty_last = s.port.now_ms) ∧
      (s.sch.duty_fired = true → elapsed s.port.now_ms s.sch.duty_last < s.sch.CFG_DUTY_CD.toNat →
        t.outs.count (.toneEnqueue .singleBeep) = s.outs.count (.toneEnqueue .singleBeep) ∧
        t.sch.duty_fired = true ∧ t.sch.duty_last = s.sch.duty_last)

/-- R181 P-e: while the duty-cycle alert is active and the driver busy, the low-voltage alert does not fire; once the
driver reports idle and the duty-cycle alert does not fire, an eligible low-voltage alert does. -/
def Obligations.DutyAlertBlocksLowVoltage : Prop :=
  ∀ s : State, s.sch.sch_init = true → s.sch.prio = .dutyCycle →
    ∃ t, exec .asTick s = .next t ∧
      (s.port.tone_busy = true →
        t.outs.count (.toneEnqueue .descending) = s.outs.count (.toneEnqueue .descending) ∧
        t.sch.prio = .dutyCycle ∧ t.sch.lowv_last = s.sch.lowv_last) ∧
      (s.port.tone_busy = false → voltBelow s.td s.sch = true →
        cooldownOk s.sch.lowv_fired s.sch.lowv_last s.sch.CFG_LOWV_CD s.port.now_ms = true →
        t.outs.count (.toneEnqueue .singleBeep) = s.outs.count (.toneEnqueue .singleBeep) →
        t.outs.count (.toneEnqueue .descending) = s.outs.count (.toneEnqueue .descending) + 1 ∧
        t.sch.prio = .lowVoltage)

/-- R181 P-f: the startup chime is queued only by the operation that turns `sch_init` from 0 to 1, once, and only
reset turns it back: so at most once between two resets. -/
def Obligations.ChimeQueuedOncePerLifetime : Prop :=
  ∀ s t : State, step s = .next t →
    (t.outs.count (.toneEnqueue .startupChime) = s.outs.count (.toneEnqueue .startupChime) ∨
      (t.outs.count (.toneEnqueue .startupChime) = s.outs.count (.toneEnqueue .startupChime) + 1 ∧
        s.sch.sch_init = false ∧ t.sch.sch_init = true)) ∧
    (s.sch.sch_init = true → t.sch.sch_init = true ∨ s.sample.port.rst = true)

/-! ### Host commands and registers -/

/-- R200: NOP answers `OK` and changes nothing. -/
def Obligations.NopChangesNothing : Prop :=
  ∀ s : State, exec .nop s = .next { s with outs := .respond .ok 0 :: s.outs }

/-- R47 to R49, R201: CSR.RD of an implemented number answers the register's value, zero-extended, and changes
nothing. -/
def Obligations.CsrReadAnswersValue : Prop :=
  ∀ (s : State) (n : Byte) (x : Nat), s.re.re_polls < 2 ^ 32 → (n.toNat, x) ∈ csrTable s →
    (n.toNat ∈ bcastNumbers → s.cfg.HAS_BCAST = true) →
    ∃ v, exec (.csrRd n) s = .next { s with outs := .respond .ok v :: s.outs } ∧ v.toNat = x

/-- R47: an unimplemented number is refused with `E_BADREG`, read or written; so are those of the broadcast part
where `HAS_BCAST` is false. Nothing changes. -/
def Obligations.UnimplementedCsrRefused : Prop :=
  ∀ (s : State) (n : Byte) (v : Dword), ¬Implemented s n.toNat →
    exec (.csrRd n) s = .next { s with outs := .respond .badReg 0 :: s.outs } ∧
      exec (.csrWr n v) s = .next { s with outs := .respond .badReg 0 :: s.outs }

/-- R202, R47: CSR.WR of a read-write register stores the value truncated to its width and changes no other register,
and a write of a read-only register is refused with `E_RO`. -/
def Obligations.CsrWriteTruncates : Prop :=
  ∀ (s : State) (n : Byte) (v : Dword), Implemented s n.toNat →
    ((∀ w, (n.toNat, w) ∉ rwTable) →
      exec (.csrWr n v) s = .next { s with outs := .respond .readOnly 0 :: s.outs }) ∧
    (∀ w, (n.toNat, w) ∈ rwTable →
      ∃ t, exec (.csrWr n v) s = .next t ∧ t.outs = .respond .ok 0 :: s.outs ∧
        (n.toNat, v.toNat % 2 ^ w) ∈ csrTable t ∧
        (∀ m x, m ≠ n.toNat → ((m, x) ∈ csrTable t ↔ (m, x) ∈ csrTable s)) ∧
        t.re.buf = s.re.buf ∧ t.re.filled = s.re.filled ∧ t.cfg = s.cfg ∧ t.port = s.port ∧
        t.script = s.script ∧ t.rxAnswers = s.rxAnswers ∧ t.free = s.free)

/-- R102, R203: every host command completes in every state with exactly one response, the last of its outputs; no
other operation responds. -/
def Obligations.EveryCommandAnswersOnce : Prop :=
  ∀ (i : Instr) (s : State), ∃ t, exec i s = .next t ∧
    (hostCommand i = true →
      ∃ c v new, t.outs = .respond c v :: (new ++ s.outs) ∧ new.countP isResponse = 0) ∧
    (hostCommand i = false → t.outs.countP isResponse = s.outs.countP isResponse)

/-- R223, R221: a command that answers a code other than `OK` answers the value 0 and has no effect at all. -/
def Obligations.FailingCommandHasNoEffect : Prop :=
  ∀ (i : Instr) (s t : State) (c : RspCode) (v : Dword), hostCommand i = true →
    exec i s = .next t → t.outs.head? = some (.respond c v) → c ≠ .ok →
    v = 0 ∧ t = { s with outs := .respond c 0 :: s.outs }

/-- R20 to R46, each register's writers: the parameters and the schedule of inputs are written by no instruction; the
scheduler's registers only by AS.INIT, AS.TICK and CSR.WR; the snapshot only by TD.DECODE, MSG.RT, MSG.BAL, TD.BCAST
and CSR.WR; the engine's registers only by RE.START, RE.POLL, RX.FILL, RX.HDR, RE.END and CSR.WR; the transport is
polled only by RE.POLL (that no other operation reaches it is DEDUCED, log 6). -/
def Obligations.OnlyNamedOperationsWrite : Prop :=
  ∀ (i : Instr) (s t : State), exec i s = .next t →
    t.cfg = s.cfg ∧ t.port = s.port ∧ t.script = s.script ∧
    (t.sch ≠ s.sch → i = .asInit ∨ i = .asTick ∨ ∃ n v, i = .csrWr n v) ∧
    (t.td ≠ s.td → (∃ x, i = .tdDecode x) ∨ i = .msgRt ∨ i = .msgBal ∨ (∃ n d, i = .tdBcast n d) ∨
      ∃ n v, i = .csrWr n v) ∧
    (t.re ≠ s.re → (∃ x, i = .reStart x) ∨ i = .rePoll ∨ (∃ o p, i = .rxFill o p) ∨
      (∃ b0 b1 n r, i = .rxHdr b0 b1 n r) ∨ i = .reEnd ∨ ∃ n v, i = .csrWr n v) ∧
    (t.rxAnswers ≠ s.rxAnswers ∨ t.free ≠ s.free → i = .rePoll)

/-- R226, R2: nothing the bus sends reaches configuration, the snapshot or the scheduler: an RE.POLL step keeps them,
the request descriptor and the window's origin, and outputs nothing but its polls. -/
def Obligations.BusReachesOnlyCycleState : Prop :=
  ∀ s : State, ∃ t, exec .rePoll s = .next t ∧ t.cfg = s.cfg ∧ t.td = s.td ∧ t.sch = s.sch ∧
    t.re.REQ_DEST = s.re.REQ_DEST ∧ t.re.REQ_TAG = s.re.REQ_TAG ∧ t.re.REQ_LEN = s.re.REQ_LEN ∧
    t.re.REQ_PAY = s.re.REQ_PAY ∧ t.re.re_t0 = s.re.re_t0 ∧
    (t.outs = s.outs ∨ t.outs = .rxPoll :: s.outs)

/-- R2: no scheduler rule reads engine state, and no engine rule reads the snapshot or the scheduler. -/
def Obligations.UnitsAreDecoupled : Prop :=
  (∀ (s : State) (re : ReState) (i : Instr), i = .asInit ∨ i = .asTick →
    ∃ t, exec i s = .next t ∧ exec i { s with re := re } = .next { t with re := re }) ∧
  (∀ (s : State) (td : TdState) (sch : AsState) (i : Instr),
    i = .rePoll ∨ i = .reEnd ∨ (∃ x, i = .reStart x) ∨ (∃ x, i = .reRd x) →
    ∃ t, exec i s = .next t ∧
      exec i { s with td := td, sch := sch } = .next { t with td := td, sch := sch })

/-- R156: only reset clears a valid bit of the snapshot. -/
def Obligations.ValidBitsClearedOnlyByReset : Prop :=
  ∀ s t : State, step s = .next t → s.sample.port.rst = false →
    (s.td.snap_rt_valid = true → t.td.snap_rt_valid = true) ∧
    (s.td.snap_bal_valid = true → t.td.snap_bal_valid = true) ∧
    (s.td.bc_valid = true → t.td.bc_valid = true)

/-! ### The machine -/

/-- R55: the value of every register after reset, for every choice of the parameters. -/
def Obligations.ResetValues : Prop :=
  ∀ p : Params,
    let s := State.resetWith p
    (s.re.re_busy = false ∧ (∀ i, s.re.buf.read i = 0) ∧
      (∀ (i : Nat) (h : i < 50), s.re.filled[i] = false) ∧ s.re.filled_len = 0 ∧
      s.re.hdr_seen = false ∧ s.re.exp_len = 0 ∧ s.re.hdr_b0 = 0 ∧ s.re.hdr_b1 = 0 ∧
      s.re.re_t0 = 0 ∧ s.re.re_polls = 0 ∧ s.re.buf_valid = false ∧ s.re.buf_len = 0 ∧
      s.re.REQ_DEST = 0 ∧ s.re.REQ_TAG = 0 ∧ s.re.REQ_LEN = 0 ∧ s.re.REQ_PAY = 0) ∧
    (s.td.snap_duty = 0 ∧ s.td.snap_erpm = 0 ∧ s.td.snap_volt = 0 ∧ s.td.snap_rt_valid = false ∧
      s.td.snap_bal_status = 0 ∧ s.td.snap_sens_a = 0 ∧ s.td.snap_sens_b = 0 ∧
      s.td.snap_bal_valid = false ∧ s.td.bc_ch0 = 0 ∧ s.td.bc_ch1 = 0 ∧ s.td.bc_ch2 = 0 ∧
      s.td.bc_aux = 0 ∧ s.td.bc_presence = false ∧ s.td.bc_valid = false ∧
      s.td.CFG_PRES_THR = 150) ∧
    (s.sch.prio = .none ∧ s.sch.sch_init = false ∧ s.sch.duty_last = 0 ∧ s.sch.lowv_last = 0 ∧
      s.sch.tone_last = 0 ∧ s.sch.duty_fired = false ∧ s.sch.lowv_fired = false ∧
      s.sch.CFG_DUTY_THR = 0 ∧ s.sch.CFG_VOLT_THR = 0 ∧ s.sch.CFG_DUTY_CD = 1000 ∧
      s.sch.CFG_LOWV_CD = 5000 ∧ s.sch.CFG_CHIME_EN = false) ∧
    s.outs = []

/-- R250, R251: at a scheduled sample the assertion of `rst` wins over a command presented with it: every register gets
its reset value, nothing is output, and the transport is not reached. That the command is used up without a response is
the model's, DEDUCED (log 16), and so is that the transport keeps its answers (log 6). -/
def Obligations.ResetWinsAndEmitsNothing : Prop :=
  ∀ (s : State) (p : Ports) (rest : List Ports), s.script = p :: rest → p.rst = true →
    step s =
      .next
        { State.resetWith s.cfg with
          port := p, script := rest, rxAnswers := s.rxAnswers, outs := s.outs, free := s.free }

/-- R70, R100, R101, R203: a sample with a command whose op byte is in the map runs the decoded instruction, whole
and at once, in every state, a collection in progress included. -/
def Obligations.StepRunsDecodedCommand : Prop :=
  ∀ (s : State) (p : Ports) (rest : List Ports) (w : BitVec 80) (i : Instr),
    s.script = p :: rest → p.rst = false → p.cmd = some w → decode s.cfg (.command w) = .ok i →
    step s = exec i { s with port := p, script := rest }

/-- R101: every other op byte is undefined: the command changes no state, emits nothing and answers `E_BADOP`. -/
def Obligations.UndefinedOpAnswersBadOp : Prop :=
  ∀ (s : State) (p : Ports) (rest : List Ports) (w : BitVec 80),
    s.script = p :: rest → p.rst = false → p.cmd = some w →
    w.toNat / 2 ^ 72 ∉ [0x00, 0x01, 0x02, 0x10, 0x12, 0x20, 0x21, 0x30, 0x31] →
    step s =
      .next { s with port := p, script := rest, outs := .respond .badOp 0 :: s.outs }

/-- R122, R240: a sample without a command is the sequencer's: an RE.POLL step while `re_busy = 1`, nothing
otherwise (the order of ready operations is the model's, log 3). -/
def Obligations.StepWithoutCommand : Prop :=
  ∀ (s : State) (p : Ports) (rest : List Ports),
    s.script = p :: rest → p.rst = false → p.cmd = none →
    (s.re.re_busy = true → step s = exec .rePoll { s with port := p, script := rest }) ∧
    (s.re.re_busy = false → step s = .next { s with port := p, script := rest })

/-- R220: the block never traps, never halts and never enters an error state: every operation has a next state. -/
def Obligations.NeverTrapsOrHalts : Prop :=
  ∀ s : State, (∃ t, step s = .next t) ∧ ∀ i : Instr, ∃ t, exec i s = .next t

/-- R50: the invariants I1 to I7, the canonical form of the buffer, and the cleared value of unfilled indices are kept
by every operation, whatever the environment does. -/
def Obligations.InvariantsKeptByEveryStep : Prop :=
  ∀ s t : State, s.Inv → step s = .next t → t.Inv

/-- R50: the invariants hold after reset, for every choice of the parameters that meets R9. -/
def Obligations.InvariantsHoldAtReset : Prop :=
  ∀ p : Params, p.ok → (State.resetWith p).Inv

/-- R133: a collection ends within its poll budget: given uninterrupted sequencer turns, whatever the transport answers and whatever
the time reads, after at most `MAX_POLLS - re_polls + 1` of them `re_busy` is 0. -/
def Obligations.CollectionEndsWithinPollBudget : Prop :=
  ∀ s : State, s.re.re_busy = true →
    s.cfg.MAX_POLLS - s.re.re_polls + 1 ≤ s.script.length →
    (∀ p ∈ s.script, p.sequencerTurn) →
    ∃ k, k ≤ s.cfg.MAX_POLLS - s.re.re_polls + 1 ∧
      ∃ t, core.run k s = .next t ∧ t.re.re_busy = false

/-- R134 P-a: a fresh cycle that is handed, in any order and within its bounds, fragments covering exactly
`[0, n)` and a header declaring `n`, ends with a validated buffer of exactly those `n` bytes. -/
def Obligations.CoveringFragmentsValidateInAnyOrder : Prop :=
  ∀ (s : State) (as later : List (Option Frame)) (n : Nat) (data : Nat → Byte),
    s.Inv → s.re.re_busy = true → s.re.filled_len = 0 → s.re.hdr_seen = false →
    s.re.re_polls = 0 → n ≤ 50 → Delivers s.cfg as n data →
    s.rxAnswers.map RxPort.frame = as ++ later → as.length ≤ s.cfg.MAX_POLLS → as.length ≤ s.script.length →
    (∀ p ∈ s.script, p.sequencerTurn ∧ elapsed p.now_ms s.re.re_t0 < s.cfg.WINDOW_MS) →
    ∃ k, k ≤ as.length ∧ ∃ t, core.run k s = .next t ∧ t.re.re_busy = false ∧
      t.re.buf_valid = true ∧ t.re.buf_len.toNat = n ∧ ∀ i < n, t.re.buf.read i = data i

/-! ### Encodings -/

/-- R90 to R101: decode and encode agree: every well-formed instruction, with every operand at every value its
encoding admits, is read back from the form that encodes it. -/
def Obligations.DecodeOfEncode : Prop :=
  ∀ (p : Params), p.ok → ∀ i : Instr, WellFormed p i = true → decode p (encode p i) = .ok i

/-- R93, R96, R97: whatever form is decoded, the instruction is well formed. -/
def Obligations.DecodedInstructionsAreWellFormed : Prop :=
  ∀ (p : Params) (c : Code) (i : Instr), decode p c = .ok i → WellFormed p i = true

/-- R100, R101: a command word with an op of the map is the encoding of its instruction in every bit the operation
uses: the re-encoded word has the same op and decodes to the same instruction, and where it differs from the word the
operation ignores the field. -/
def Obligations.EncodeOfDecodedCommand : Prop :=
  ∀ (p : Params) (w : BitVec 80) (i : Instr), decode p (.command w) = .ok i →
    hostCommand i = true ∧
      ∃ w', encode p i = .command w' ∧ cmdOp w' = cmdOp w ∧ decode p (.command w') = .ok i ∧
        (cmdA w' = cmdA w ∨ ∀ a : Byte,
          decode p (.command (commandWord (cmdOp w) a (cmdD w))) = .ok i) ∧
        (cmdD w' = cmdD w ∨ ∀ d : Dword,
          decode p (.command (commandWord (cmdOp w) (cmdA w) d)) = .ok i)

/-- R101, R95 at P0: words written out from the spec's encodings decode to the instructions they stand for. -/
def Obligations.SampleWordsDecode : Prop :=
  decode p0 (.command 0x10010000000000000000) = .ok (.reStart 1) ∧
  decode p0 (.command 0x0102000000000000ABCD) = .ok (.csrWr 2 0xABCD) ∧
  decode p0 (.command 0x210800C80032FF9C03E8) = .ok (.tdBcast 8 0x00C80032FF9C03E8) ∧
  decode p0 (.answer (some
    { id := 0x80000502, length := 4, data := #v[0x07, 0x11, 0x22, 0x33, 0, 0, 0, 0] })) =
    .ok (.rxFill 7 [0x11, 0x22, 0x33]) ∧
  decode p0 (.answer (some
    { id := 0x80000702, length := 6, data := #v[0x02, 0x01, 0x00, 0x12, 0, 0, 0, 0] })) =
    .ok (.rxHdr 0x02 0x01 18 [0, 0]) ∧
  decode p0 (.shape 0x4F 37) = .ok .msgBal

/-! ### Fairness of the sequencer, and the transport's ports -/

/-- R133, R265: under weak fairness of the RE sequencer every cycle ends or is abandoned by an RE.START, whatever host
commands fall between its turns, whatever the transport answers and whatever the time reads; and that takes at most
`MAX_POLLS - re_polls + 1` turns of the sequencer. -/
def Obligations.CycleEndsUnderWeakFairness : Prop :=
  ∀ (env : Nat → Ports) (run : Nat → State), Execution env run → SequencerFair env run →
    (run 0).re.re_busy = true →
    ∃ k, turnsBefore env k ≤ (run 0).cfg.MAX_POLLS - (run 0).re.re_polls + 1 ∧
      ((run k).re.re_busy = false ∨ (env k).startsCycle (run k).cfg)

/-- R53, R62: the transport's ports carry frames big-endian: `rx_valid = 0` is no frame, byte `k` of a received frame is
`rx_data[63-8k : 56-8k]`, byte `k` of a sent one is `tx_data[63-8k : 56-8k]`, and every answer has receive ports. -/
def Obligations.TransportPortsCarryFrames : Prop :=
  (∀ a : RxPort, a.rx_valid = false → a.frame = none) ∧
  (∀ a : RxPort, a.rx_valid = true →
    ∃ f, a.frame = some f ∧ f.id = a.rx_id ∧ f.length = a.rx_len ∧
      ∀ (k : Nat) (h : k < 8), f.data[k].toNat = portByte a.rx_data k) ∧
  (∀ f : Frame, (TxPort.ofFrame f).tx_id = f.id ∧
    (f.length.toNat < 16 → (TxPort.ofFrame f).tx_len.toNat = f.length.toNat) ∧
    ∀ (k : Nat) (h : k < 8), portByte (TxPort.ofFrame f).tx_data k = f.data[k].toNat) ∧
  (∀ a : Option Frame, (RxPort.ofFrame a).frame = a)
end

