-- ==== Sys2Proof/Laws/State.lean ====
section
/-! SUPPORT. One lemma per field per update of the state, so that no proof unfolds a record update. -/

namespace Sys2Proof.Machine

/-! ### `State.emit` -/

@[simp] theorem State.emit_cfg (s : State) (o : Output) : (s.emit o).cfg = s.cfg := rfl

@[simp] theorem State.emit_re (s : State) (o : Output) : (s.emit o).re = s.re := rfl

@[simp] theorem State.emit_td (s : State) (o : Output) : (s.emit o).td = s.td := rfl

@[simp] theorem State.emit_sch (s : State) (o : Output) : (s.emit o).sch = s.sch := rfl

@[simp] theorem State.emit_port (s : State) (o : Output) : (s.emit o).port = s.port := rfl

@[simp] theorem State.emit_script (s : State) (o : Output) : (s.emit o).script = s.script := rfl

@[simp] theorem State.emit_rxAnswers (s : State) (o : Output) :
    (s.emit o).rxAnswers = s.rxAnswers := rfl

@[simp] theorem State.emit_outs (s : State) (o : Output) : (s.emit o).outs = o :: s.outs := rfl

@[simp] theorem State.emit_free (s : State) (o : Output) : (s.emit o).free = s.free := rfl

/-! ### `State.respond` -/

@[simp] theorem State.respond_cfg (s : State) (c : RspCode) (v : Dword) :
    (s.respond c v).cfg = s.cfg := rfl

@[simp] theorem State.respond_re (s : State) (c : RspCode) (v : Dword) :
    (s.respond c v).re = s.re := rfl

@[simp] theorem State.respond_td (s : State) (c : RspCode) (v : Dword) :
    (s.respond c v).td = s.td := rfl

@[simp] theorem State.respond_sch (s : State) (c : RspCode) (v : Dword) :
    (s.respond c v).sch = s.sch := rfl

@[simp] theorem State.respond_port (s : State) (c : RspCode) (v : Dword) :
    (s.respond c v).port = s.port := rfl

@[simp] theorem State.respond_script (s : State) (c : RspCode) (v : Dword) :
    (s.respond c v).script = s.script := rfl

@[simp] theorem State.respond_rxAnswers (s : State) (c : RspCode) (v : Dword) :
    (s.respond c v).rxAnswers = s.rxAnswers := rfl

@[simp] theorem State.respond_outs (s : State) (c : RspCode) (v : Dword) :
    (s.respond c v).outs = .respond c v :: s.outs := rfl

@[simp] theorem State.respond_free (s : State) (c : RspCode) (v : Dword) :
    (s.respond c v).free = s.free := rfl

/-! ### `State.fail` -/

@[simp] theorem State.fail_cfg (s : State) (c : RspCode) : (s.fail c).cfg = s.cfg := rfl

@[simp] theorem State.fail_re (s : State) (c : RspCode) : (s.fail c).re = s.re := rfl

@[simp] theorem State.fail_td (s : State) (c : RspCode) : (s.fail c).td = s.td := rfl

@[simp] theorem State.fail_sch (s : State) (c : RspCode) : (s.fail c).sch = s.sch := rfl

@[simp] theorem State.fail_port (s : State) (c : RspCode) : (s.fail c).port = s.port := rfl

@[simp] theorem State.fail_script (s : State) (c : RspCode) : (s.fail c).script = s.script := rfl

@[simp] theorem State.fail_rxAnswers (s : State) (c : RspCode) :
    (s.fail c).rxAnswers = s.rxAnswers := rfl

@[simp] theorem State.fail_outs (s : State) (c : RspCode) :
    (s.fail c).outs = .respond c 0 :: s.outs := rfl

@[simp] theorem State.fail_free (s : State) (c : RspCode) : (s.fail c).free = s.free := rfl

/-! ### `State.send` -/

@[simp] theorem State.send_cfg (s : State) (d : Descriptor) : (s.send d).cfg = s.cfg := rfl

@[simp] theorem State.send_re (s : State) (d : Descriptor) : (s.send d).re = s.re := rfl

@[simp] theorem State.send_td (s : State) (d : Descriptor) : (s.send d).td = s.td := rfl

@[simp] theorem State.send_sch (s : State) (d : Descriptor) : (s.send d).sch = s.sch := rfl

@[simp] theorem State.send_port (s : State) (d : Descriptor) : (s.send d).port = s.port := rfl

@[simp] theorem State.send_script (s : State) (d : Descriptor) : (s.send d).script = s.script := rfl

@[simp] theorem State.send_rxAnswers (s : State) (d : Descriptor) :
    (s.send d).rxAnswers = s.rxAnswers := rfl

@[simp] theorem State.send_outs (s : State) (d : Descriptor) :
    (s.send d).outs = .tx (TxPort.ofFrame d.frame) :: s.outs := rfl

@[simp] theorem State.send_free (s : State) (d : Descriptor) : (s.send d).free = s.free := rfl

/-! ### `State.clearCycle` -/

@[simp] theorem State.clearCycle_cfg (s : State) : s.clearCycle.cfg = s.cfg := rfl

@[simp] theorem State.clearCycle_td (s : State) : s.clearCycle.td = s.td := rfl

@[simp] theorem State.clearCycle_sch (s : State) : s.clearCycle.sch = s.sch := rfl

@[simp] theorem State.clearCycle_port (s : State) : s.clearCycle.port = s.port := rfl

@[simp] theorem State.clearCycle_script (s : State) : s.clearCycle.script = s.script := rfl

@[simp] theorem State.clearCycle_rxAnswers (s : State) : s.clearCycle.rxAnswers = s.rxAnswers := rfl

@[simp] theorem State.clearCycle_outs (s : State) : s.clearCycle.outs = s.outs := rfl

@[simp] theorem State.clearCycle_free (s : State) : s.clearCycle.free = s.free := rfl

/-! ### `State.setBusy` -/

@[simp] theorem State.setBusy_cfg (s : State) : s.setBusy.cfg = s.cfg := rfl

@[simp] theorem State.setBusy_td (s : State) : s.setBusy.td = s.td := rfl

@[simp] theorem State.setBusy_sch (s : State) : s.setBusy.sch = s.sch := rfl

@[simp] theorem State.setBusy_port (s : State) : s.setBusy.port = s.port := rfl

@[simp] theorem State.setBusy_script (s : State) : s.setBusy.script = s.script := rfl

@[simp] theorem State.setBusy_rxAnswers (s : State) : s.setBusy.rxAnswers = s.rxAnswers := rfl

@[simp] theorem State.setBusy_outs (s : State) : s.setBusy.outs = s.outs := rfl

@[simp] theorem State.setBusy_free (s : State) : s.setBusy.free = s.free := rfl

/-! ### `State.countPoll` -/

@[simp] theorem State.countPoll_cfg (s : State) : s.countPoll.cfg = s.cfg := rfl

@[simp] theorem State.countPoll_td (s : State) : s.countPoll.td = s.td := rfl

@[simp] theorem State.countPoll_sch (s : State) : s.countPoll.sch = s.sch := rfl

@[simp] theorem State.countPoll_port (s : State) : s.countPoll.port = s.port := rfl

@[simp] theorem State.countPoll_script (s : State) : s.countPoll.script = s.script := rfl

@[simp] theorem State.countPoll_rxAnswers (s : State) : s.countPoll.rxAnswers = s.rxAnswers := rfl

@[simp] theorem State.countPoll_outs (s : State) : s.countPoll.outs = s.outs := rfl

@[simp] theorem State.countPoll_free (s : State) : s.countPoll.free = s.free := rfl

/-! ### `State.applyReset` -/

@[simp] theorem State.applyReset_cfg (s : State) : s.applyReset.cfg = s.cfg := rfl

@[simp] theorem State.applyReset_re (s : State) : s.applyReset.re = ReState.reset := rfl

@[simp] theorem State.applyReset_td (s : State) : s.applyReset.td = TdState.reset := rfl

@[simp] theorem State.applyReset_sch (s : State) : s.applyReset.sch = AsState.reset := rfl

@[simp] theorem State.applyReset_port (s : State) : s.applyReset.port = s.port := rfl

@[simp] theorem State.applyReset_script (s : State) : s.applyReset.script = s.script := rfl

@[simp] theorem State.applyReset_rxAnswers (s : State) : s.applyReset.rxAnswers = s.rxAnswers := rfl

@[simp] theorem State.applyReset_outs (s : State) : s.applyReset.outs = s.outs := rfl

@[simp] theorem State.applyReset_free (s : State) : s.applyReset.free = s.free := rfl

@[simp] theorem State.clearCycle_re_re_busy (s : State) :
    s.clearCycle.re.re_busy = s.re.re_busy := rfl

@[simp] theorem State.clearCycle_re_buf (s : State) : s.clearCycle.re.buf = [] := rfl

@[simp] theorem State.clearCycle_re_filled (s : State) :
    s.clearCycle.re.filled = Vector.replicate Config.BUF_CAP false := rfl

@[simp] theorem State.clearCycle_re_filled_len (s : State) : s.clearCycle.re.filled_len = 0 := rfl

@[simp] theorem State.clearCycle_re_hdr_seen (s : State) : s.clearCycle.re.hdr_seen = false := rfl

@[simp] theorem State.clearCycle_re_exp_len (s : State) : s.clearCycle.re.exp_len = 0 := rfl

@[simp] theorem State.clearCycle_re_hdr_b0 (s : State) : s.clearCycle.re.hdr_b0 = 0 := rfl

@[simp] theorem State.clearCycle_re_hdr_b1 (s : State) : s.clearCycle.re.hdr_b1 = 0 := rfl

@[simp] theorem State.clearCycle_re_re_t0 (s : State) : s.clearCycle.re.re_t0 = s.port.now_ms := rfl

@[simp] theorem State.clearCycle_re_re_polls (s : State) : s.clearCycle.re.re_polls = 0 := rfl

@[simp] theorem State.clearCycle_re_buf_valid (s : State) : s.clearCycle.re.buf_valid = false := rfl

@[simp] theorem State.clearCycle_re_buf_len (s : State) : s.clearCycle.re.buf_len = 0 := rfl

@[simp] theorem State.clearCycle_re_REQ_DEST (s : State) :
    s.clearCycle.re.REQ_DEST = s.re.REQ_DEST := rfl

@[simp] theorem State.clearCycle_re_REQ_TAG (s : State) :
    s.clearCycle.re.REQ_TAG = s.re.REQ_TAG := rfl

@[simp] theorem State.clearCycle_re_REQ_LEN (s : State) :
    s.clearCycle.re.REQ_LEN = s.re.REQ_LEN := rfl

@[simp] theorem State.clearCycle_re_REQ_PAY (s : State) :
    s.clearCycle.re.REQ_PAY = s.re.REQ_PAY := rfl

@[simp] theorem State.setBusy_re_re_busy (s : State) : s.setBusy.re.re_busy = true := rfl

@[simp] theorem State.setBusy_re_buf (s : State) : s.setBusy.re.buf = s.re.buf := rfl

@[simp] theorem State.setBusy_re_filled (s : State) : s.setBusy.re.filled = s.re.filled := rfl

@[simp] theorem State.setBusy_re_filled_len (s : State) :
    s.setBusy.re.filled_len = s.re.filled_len := rfl

@[simp] theorem State.setBusy_re_hdr_seen (s : State) : s.setBusy.re.hdr_seen = s.re.hdr_seen := rfl

@[simp] theorem State.setBusy_re_exp_len (s : State) : s.setBusy.re.exp_len = s.re.exp_len := rfl

@[simp] theorem State.setBusy_re_hdr_b0 (s : State) : s.setBusy.re.hdr_b0 = s.re.hdr_b0 := rfl

@[simp] theorem State.setBusy_re_hdr_b1 (s : State) : s.setBusy.re.hdr_b1 = s.re.hdr_b1 := rfl

@[simp] theorem State.setBusy_re_re_t0 (s : State) : s.setBusy.re.re_t0 = s.re.re_t0 := rfl

@[simp] theorem State.setBusy_re_re_polls (s : State) : s.setBusy.re.re_polls = s.re.re_polls := rfl

@[simp] theorem State.setBusy_re_buf_valid (s : State) :
    s.setBusy.re.buf_valid = s.re.buf_valid := rfl

@[simp] theorem State.setBusy_re_buf_len (s : State) : s.setBusy.re.buf_len = s.re.buf_len := rfl

@[simp] theorem State.setBusy_re_REQ_DEST (s : State) : s.setBusy.re.REQ_DEST = s.re.REQ_DEST := rfl

@[simp] theorem State.setBusy_re_REQ_TAG (s : State) : s.setBusy.re.REQ_TAG = s.re.REQ_TAG := rfl

@[simp] theorem State.setBusy_re_REQ_LEN (s : State) : s.setBusy.re.REQ_LEN = s.re.REQ_LEN := rfl

@[simp] theorem State.setBusy_re_REQ_PAY (s : State) : s.setBusy.re.REQ_PAY = s.re.REQ_PAY := rfl

@[simp] theorem State.countPoll_re_re_busy (s : State) :
    s.countPoll.re.re_busy = s.re.re_busy := rfl

@[simp] theorem State.countPoll_re_buf (s : State) : s.countPoll.re.buf = s.re.buf := rfl

@[simp] theorem State.countPoll_re_filled (s : State) : s.countPoll.re.filled = s.re.filled := rfl

@[simp] theorem State.countPoll_re_filled_len (s : State) :
    s.countPoll.re.filled_len = s.re.filled_len := rfl

@[simp] theorem State.countPoll_re_hdr_seen (s : State) :
    s.countPoll.re.hdr_seen = s.re.hdr_seen := rfl

@[simp] theorem State.countPoll_re_exp_len (s : State) :
    s.countPoll.re.exp_len = s.re.exp_len := rfl

@[simp] theorem State.countPoll_re_hdr_b0 (s : State) : s.countPoll.re.hdr_b0 = s.re.hdr_b0 := rfl

@[simp] theorem State.countPoll_re_hdr_b1 (s : State) : s.countPoll.re.hdr_b1 = s.re.hdr_b1 := rfl

@[simp] theorem State.countPoll_re_re_t0 (s : State) : s.countPoll.re.re_t0 = s.re.re_t0 := rfl

@[simp] theorem State.countPoll_re_re_polls (s : State) :
    s.countPoll.re.re_polls = s.re.re_polls + 1 := rfl

@[simp] theorem State.countPoll_re_buf_valid (s : State) :
    s.countPoll.re.buf_valid = s.re.buf_valid := rfl

@[simp] theorem State.countPoll_re_buf_len (s : State) :
    s.countPoll.re.buf_len = s.re.buf_len := rfl

@[simp] theorem State.countPoll_re_REQ_DEST (s : State) :
    s.countPoll.re.REQ_DEST = s.re.REQ_DEST := rfl

@[simp] theorem State.countPoll_re_REQ_TAG (s : State) :
    s.countPoll.re.REQ_TAG = s.re.REQ_TAG := rfl

@[simp] theorem State.countPoll_re_REQ_LEN (s : State) :
    s.countPoll.re.REQ_LEN = s.re.REQ_LEN := rfl

@[simp] theorem State.countPoll_re_REQ_PAY (s : State) :
    s.countPoll.re.REQ_PAY = s.re.REQ_PAY := rfl

/-! ### `State.pollTransport` -/

@[simp] theorem State.pollTransport_cfg (s : State) : s.pollTransport.cfg = s.cfg := rfl

@[simp] theorem State.pollTransport_re (s : State) : s.pollTransport.re = s.re := rfl

@[simp] theorem State.pollTransport_td (s : State) : s.pollTransport.td = s.td := rfl

@[simp] theorem State.pollTransport_sch (s : State) : s.pollTransport.sch = s.sch := rfl

@[simp] theorem State.pollTransport_port (s : State) : s.pollTransport.port = s.port := rfl

@[simp] theorem State.pollTransport_script (s : State) : s.pollTransport.script = s.script := rfl

@[simp] theorem State.pollTransport_outs (s : State) :
    s.pollTransport.outs = .rxPoll :: s.outs := rfl

/-- The scheduled answer is handed over and removed (R67, R236). -/
theorem State.pollTransport_scheduled (s : State) (a : RxPort) (rest : List RxPort)
    (h : s.rxAnswers = a :: rest) :
    s.nextRx = a ∧ s.pollTransport.rxAnswers = rest ∧ s.pollTransport.free = s.free := by
  simp [State.nextRx, State.pollTransport, h]

/-- With none scheduled the answer is free, and the next free one differs in its index (log 4). -/
theorem State.pollTransport_free_answer (s : State) (h : s.rxAnswers = []) :
    s.nextRx = freeAnswer s.free ∧ s.pollTransport.rxAnswers = [] ∧
      s.pollTransport.free = s.free + 1 := by
  simp [State.nextRx, State.pollTransport, h]

/-! ### `State.sample` -/

@[simp] theorem State.sample_cfg (s : State) : s.sample.cfg = s.cfg := by
  unfold State.sample
  split <;> rfl

@[simp] theorem State.sample_re (s : State) : s.sample.re = s.re := by
  unfold State.sample
  split <;> rfl

@[simp] theorem State.sample_td (s : State) : s.sample.td = s.td := by
  unfold State.sample
  split <;> rfl

@[simp] theorem State.sample_sch (s : State) : s.sample.sch = s.sch := by
  unfold State.sample
  split <;> rfl

@[simp] theorem State.sample_rxAnswers (s : State) : s.sample.rxAnswers = s.rxAnswers := by
  unfold State.sample
  split <;> rfl

@[simp] theorem State.sample_outs (s : State) : s.sample.outs = s.outs := by
  unfold State.sample
  split <;> rfl

/-- A scheduled sample is latched and removed from the script (log 3). -/
theorem State.sample_scheduled (s : State) (p : Ports) (rest : List Ports) (h : s.script = p :: rest) :
    s.sample = { s with port := p, script := rest } := by
  simp [State.sample, h]

/-! ### `ReState.endCycle`, `ReState.header` -/

@[simp] theorem ReState.endCycle_buf (re : ReState) : re.endCycle.buf = re.buf := by
  unfold ReState.endCycle
  split <;> rfl

@[simp] theorem ReState.endCycle_filled (re : ReState) : re.endCycle.filled = re.filled := by
  unfold ReState.endCycle
  split <;> rfl

@[simp] theorem ReState.endCycle_filled_len (re : ReState) :
    re.endCycle.filled_len = re.filled_len := by
  unfold ReState.endCycle
  split <;> rfl

@[simp] theorem ReState.endCycle_hdr_seen (re : ReState) : re.endCycle.hdr_seen = re.hdr_seen := by
  unfold ReState.endCycle
  split <;> rfl

@[simp] theorem ReState.endCycle_exp_len (re : ReState) : re.endCycle.exp_len = re.exp_len := by
  unfold ReState.endCycle
  split <;> rfl

@[simp] theorem ReState.endCycle_hdr_b0 (re : ReState) : re.endCycle.hdr_b0 = re.hdr_b0 := by
  unfold ReState.endCycle
  split <;> rfl

@[simp] theorem ReState.endCycle_hdr_b1 (re : ReState) : re.endCycle.hdr_b1 = re.hdr_b1 := by
  unfold ReState.endCycle
  split <;> rfl

@[simp] theorem ReState.endCycle_re_t0 (re : ReState) : re.endCycle.re_t0 = re.re_t0 := by
  unfold ReState.endCycle
  split <;> rfl

@[simp] theorem ReState.endCycle_re_polls (re : ReState) : re.endCycle.re_polls = re.re_polls := by
  unfold ReState.endCycle
  split <;> rfl

@[simp] theorem ReState.endCycle_REQ_DEST (re : ReState) : re.endCycle.REQ_DEST = re.REQ_DEST := by
  unfold ReState.endCycle
  split <;> rfl

@[simp] theorem ReState.endCycle_REQ_TAG (re : ReState) : re.endCycle.REQ_TAG = re.REQ_TAG := by
  unfold ReState.endCycle
  split <;> rfl

@[simp] theorem ReState.endCycle_REQ_LEN (re : ReState) : re.endCycle.REQ_LEN = re.REQ_LEN := by
  unfold ReState.endCycle
  split <;> rfl

@[simp] theorem ReState.endCycle_REQ_PAY (re : ReState) : re.endCycle.REQ_PAY = re.REQ_PAY := by
  unfold ReState.endCycle
  split <;> rfl

@[simp] theorem ReState.endCycle_re_busy (re : ReState) : re.endCycle.re_busy = false := by
  unfold ReState.endCycle
  split <;> rfl

@[simp] theorem ReState.endCycle_buf_valid (re : ReState) : re.endCycle.buf_valid = validates re := by
  unfold ReState.endCycle
  split <;> simp_all

@[simp] theorem ReState.endCycle_buf_len (re : ReState) :
    re.endCycle.buf_len = if validates re then re.filled_len else 0 := by
  unfold ReState.endCycle
  split <;> rfl

@[simp] theorem ReState.header_re_busy (re : ReState) (b0 b1 : Byte) (n : Half) :
    (re.header b0 b1 n).re_busy = re.re_busy := rfl

@[simp] theorem ReState.header_buf (re : ReState) (b0 b1 : Byte) (n : Half) :
    (re.header b0 b1 n).buf = re.buf := rfl

@[simp] theorem ReState.header_filled (re : ReState) (b0 b1 : Byte) (n : Half) :
    (re.header b0 b1 n).filled = re.filled := rfl

@[simp] theorem ReState.header_filled_len (re : ReState) (b0 b1 : Byte) (n : Half) :
    (re.header b0 b1 n).filled_len = re.filled_len := rfl

@[simp] theorem ReState.header_hdr_seen (re : ReState) (b0 b1 : Byte) (n : Half) :
    (re.header b0 b1 n).hdr_seen = true := rfl

@[simp] theorem ReState.header_exp_len (re : ReState) (b0 b1 : Byte) (n : Half) :
    (re.header b0 b1 n).exp_len = n := rfl

@[simp] theorem ReState.header_hdr_b0 (re : ReState) (b0 b1 : Byte) (n : Half) :
    (re.header b0 b1 n).hdr_b0 = b0 := rfl

@[simp] theorem ReState.header_hdr_b1 (re : ReState) (b0 b1 : Byte) (n : Half) :
    (re.header b0 b1 n).hdr_b1 = b1 := rfl

@[simp] theorem ReState.header_re_t0 (re : ReState) (b0 b1 : Byte) (n : Half) :
    (re.header b0 b1 n).re_t0 = re.re_t0 := rfl

@[simp] theorem ReState.header_re_polls (re : ReState) (b0 b1 : Byte) (n : Half) :
    (re.header b0 b1 n).re_polls = re.re_polls := rfl

@[simp] theorem ReState.header_buf_valid (re : ReState) (b0 b1 : Byte) (n : Half) :
    (re.header b0 b1 n).buf_valid = re.buf_valid := rfl

@[simp] theorem ReState.header_buf_len (re : ReState) (b0 b1 : Byte) (n : Half) :
    (re.header b0 b1 n).buf_len = re.buf_len := rfl

@[simp] theorem ReState.header_REQ_DEST (re : ReState) (b0 b1 : Byte) (n : Half) :
    (re.header b0 b1 n).REQ_DEST = re.REQ_DEST := rfl

@[simp] theorem ReState.header_REQ_TAG (re : ReState) (b0 b1 : Byte) (n : Half) :
    (re.header b0 b1 n).REQ_TAG = re.REQ_TAG := rfl

@[simp] theorem ReState.header_REQ_LEN (re : ReState) (b0 b1 : Byte) (n : Half) :
    (re.header b0 b1 n).REQ_LEN = re.REQ_LEN := rfl

@[simp] theorem ReState.header_REQ_PAY (re : ReState) (b0 b1 : Byte) (n : Half) :
    (re.header b0 b1 n).REQ_PAY = re.REQ_PAY := rfl

end Sys2Proof.Machine
end

