-- ==== Sys2Proof/Laws/Memory.lean ====
section
/-! SUPPORT. The laws of the logical buffer and of its fill tracking (20_memory.md R60 to R65). -/

namespace Sys2Proof.Machine

open Config

/-! ### Reading after writing -/

theorem Memory.read_insertCell_same (m : Memory) (i : Nat) (v : Byte) (h : ∀ c ∈ m, c.1 ≠ i) :
    Memory.read (m.insertCell i v) i = v := by
  induction m with
  | nil => simp [Memory.insertCell, Memory.read]
  | cons c m ih =>
    unfold Memory.insertCell
    split
    · simp [Memory.read]
    · have hc : c.1 ≠ i := h c (by simp)
      simp [Memory.read, hc, ih (fun c' hc' => h c' (by simp [hc']))]

theorem Memory.read_insertCell_ne (m : Memory) (i j : Nat) (v : Byte) (h : j ≠ i) :
    Memory.read (m.insertCell i v) j = m.read j := by
  induction m with
  | nil => simp [Memory.insertCell, Memory.read, h.symm]
  | cons c m ih =>
    unfold Memory.insertCell
    split
    · simp [Memory.read, h.symm]
    · simp [Memory.read, ih]

theorem Memory.read_erase_same (m : Memory) (i : Nat) : Memory.read (m.erase i) i = 0 := by
  induction m with
  | nil => rfl
  | cons c m ih =>
    by_cases hc : c.1 = i
    · simpa [Memory.erase, hc] using ih
    · simpa [Memory.erase, Memory.read, hc] using ih

theorem Memory.read_erase_ne (m : Memory) (i j : Nat) (h : j ≠ i) :
    Memory.read (m.erase i) j = m.read j := by
  induction m with
  | nil => rfl
  | cons c m ih =>
    by_cases hc : c.1 = i
    · have hj : c.1 ≠ j := fun e => h (e.symm.trans hc)
      simpa [Memory.erase, Memory.read, hc, h.symm, hj] using ih
    · by_cases hj : c.1 = j
      · simp [Memory.erase, Memory.read, hj, h]
      · simpa [Memory.erase, Memory.read, hc, hj] using ih

theorem Memory.ne_of_mem_erase (m : Memory) (i : Nat) (c : Host.Cell) (h : c ∈ m.erase i) : c.1 ≠ i := by
  simp only [Memory.erase, List.mem_filter, bne_iff_ne, ne_eq] at h
  exact h.2

/-- A read after a write gives the value at the index written and leaves every other index alone. -/
theorem Memory.read_write (m : Memory) (i j : Nat) (v : Byte) :
    (m.write i v).read j = if j = i then v else m.read j := by
  unfold Memory.write
  by_cases hj : j = i
  · subst hj
    split
    · next hv => simp [Memory.read_erase_same, hv]
    · simpa using Memory.read_insertCell_same _ j v (fun c hc => Memory.ne_of_mem_erase m j c hc)
  · simp only [hj, if_false]
    split
    · exact Memory.read_erase_ne m i j hj
    · rw [Memory.read_insertCell_ne _ _ _ _ hj, Memory.read_erase_ne m i j hj]

@[simp] theorem Memory.read_nil (i : Nat) : Memory.read [] i = 0 := rfl

/-! ### The canonical form -/

theorem Memory.wfFrom_cons (lo : Nat) (c : Host.Cell) (m : Memory) :
    Memory.wfFrom lo (c :: m) = true ↔
      (lo ≤ c.1 ∧ c.1 < BUF_CAP ∧ c.2 ≠ 0) ∧ Memory.wfFrom (c.1 + 1) m = true := by
  simp [Memory.wfFrom]

theorem Memory.wfFrom_mono (lo lo' : Nat) (m : Memory) (h : lo' ≤ lo)
    (hm : Memory.wfFrom lo m = true) : Memory.wfFrom lo' m = true := by
  cases m with
  | nil => rfl
  | cons c m =>
    rw [Memory.wfFrom_cons] at hm ⊢
    exact ⟨⟨le_trans h hm.1.1, hm.1.2⟩, hm.2⟩

theorem Memory.wfFrom_erase (lo i : Nat) (m : Memory) (hm : Memory.wfFrom lo m = true) :
    Memory.wfFrom lo (m.erase i) = true := by
  induction m generalizing lo with
  | nil => rfl
  | cons c m ih =>
    rw [Memory.wfFrom_cons] at hm
    have ht := ih (c.1 + 1) hm.2
    by_cases hc : c.1 = i
    · have : Memory.erase (c :: m) i = Memory.erase m i := by simp [Memory.erase, hc]
      rw [this]
      exact Memory.wfFrom_mono _ _ _ (by omega) ht
    · have : Memory.erase (c :: m) i = c :: Memory.erase m i := by simp [Memory.erase, hc]
      rw [this, Memory.wfFrom_cons]
      exact ⟨hm.1, ht⟩

theorem Memory.wfFrom_insertCell (lo i : Nat) (v : Byte) (m : Memory) (hm : Memory.wfFrom lo m = true)
    (hlo : lo ≤ i) (hi : i < BUF_CAP) (hv : v ≠ 0) (hne : ∀ c ∈ m, c.1 ≠ i) :
    Memory.wfFrom lo (m.insertCell i v) = true := by
  induction m generalizing lo with
  | nil => simpa [Memory.insertCell, Memory.wfFrom, hlo, hi] using hv
  | cons c m ih =>
    rw [Memory.wfFrom_cons] at hm
    have hc : c.1 ≠ i := hne c (by simp)
    unfold Memory.insertCell
    split
    · next hlt =>
      rw [Memory.wfFrom_cons, Memory.wfFrom_cons]
      exact ⟨⟨hlo, hi, hv⟩, ⟨⟨by omega, hm.1.2⟩, hm.2⟩⟩
    · next hge =>
      rw [Memory.wfFrom_cons]
      exact ⟨hm.1, ih (c.1 + 1) hm.2 (by omega) (fun c' hc' => hne c' (by simp [hc']))⟩

/-- A write inside the capacity keeps the canonical form. -/
theorem Memory.wf_write (m : Memory) (i : Nat) (v : Byte) (hm : m.wf = true) (hi : i < BUF_CAP) :
    (m.write i v).wf = true := by
  unfold Memory.write Memory.wf at *
  split
  · exact Memory.wfFrom_erase 0 i m hm
  · next hv =>
    exact Memory.wfFrom_insertCell 0 i v _ (Memory.wfFrom_erase 0 i m hm) (by omega) hi hv
      (fun c hc => Memory.ne_of_mem_erase m i c hc)

theorem Memory.wf_nil : Memory.wf [] = true := rfl

/-- Reset's memory has the canonical form. -/
theorem reset_buf_wf (p : Params) : (State.resetWith p).re.buf.wf = true := rfl

theorem Memory.read_below (lo i : Nat) (m : Memory) (hm : Memory.wfFrom lo m = true) (h : i < lo) :
    m.read i = 0 := by
  induction m generalizing lo with
  | nil => rfl
  | cons c m ih =>
    rw [Memory.wfFrom_cons] at hm
    have hc : c.1 ≠ i := by omega
    simp only [Memory.read, hc, if_false]
    exact ih (c.1 + 1) hm.2 (by omega)

theorem Memory.eq_of_read_from (lo : Nat) (m m' : Memory) (hm : Memory.wfFrom lo m = true)
    (hm' : Memory.wfFrom lo m' = true) (h : ∀ i, m.read i = m'.read i) : m = m' := by
  induction m generalizing lo m' with
  | nil =>
    cases m' with
    | nil => rfl
    | cons c m' =>
      rw [Memory.wfFrom_cons] at hm'
      have := h c.1
      simp only [Memory.read, if_true] at this
      exact absurd this.symm hm'.1.2.2
  | cons c m ih =>
    cases m' with
    | nil =>
      rw [Memory.wfFrom_cons] at hm
      have := h c.1
      simp only [Memory.read, if_true] at this
      exact absurd this hm.1.2.2
    | cons c' m' =>
      rw [Memory.wfFrom_cons] at hm hm'
      have hcc : c.1 = c'.1 := by
        rcases Nat.lt_trichotomy c.1 c'.1 with hlt | heq | hgt
        · have e := h c.1
          have hne : c'.1 ≠ c.1 := by omega
          simp only [Memory.read, if_true, hne, if_false] at e
          rw [Memory.read_below (c'.1 + 1) c.1 m' hm'.2 (by omega)] at e
          exact absurd e hm.1.2.2
        · exact heq
        · have e := h c'.1
          have hne : c.1 ≠ c'.1 := by omega
          simp only [Memory.read, if_true, hne, if_false] at e
          rw [Memory.read_below (c.1 + 1) c'.1 m hm.2 (by omega)] at e
          exact absurd e.symm hm'.1.2.2
      have hv : c.2 = c'.2 := by
        have e := h c.1
        simpa [Memory.read, hcc] using e
      have ht : m = m' := by
        refine ih (c.1 + 1) m' hm.2 (hcc ▸ hm'.2) (fun i => ?_)
        by_cases hi : c.1 = i
        · rw [Memory.read_below (c.1 + 1) i m hm.2 (by omega),
            Memory.read_below (c'.1 + 1) i m' hm'.2 (by omega)]
        · have e := h i
          have hi' : c'.1 ≠ i := by omega
          simpa [Memory.read, hi, hi'] using e
      rw [Prod.ext hcc hv, ht]

/-- Two buffers in canonical form that read alike are equal data. -/
theorem Memory.eq_of_read (m m' : Memory) (hm : m.wf = true) (hm' : m'.wf = true)
    (h : ∀ i, m.read i = m'.read i) : m = m' :=
  Memory.eq_of_read_from 0 m m' hm hm' h

/-! ### One byte stored -/

/-- Inside the capacity: the byte is written, its bit set, and counted if the bit was 0 (R64). -/
theorem ReState.storeByte_inside (re : ReState) (i : Nat) (v : Byte) (h : i < BUF_CAP) :
    re.storeByte i v =
      { re with
        filled_len := if re.filled[i] then re.filled_len else re.filled_len + 1
        filled := re.filled.set i true
        buf := re.buf.write i v } := by
  simp [ReState.storeByte, h]

/-- At or above the capacity: dropped, silently (R64). -/
theorem ReState.storeByte_outside (re : ReState) (i : Nat) (v : Byte) (h : BUF_CAP ≤ i) :
    re.storeByte i v = re := by
  have h' : ¬ i < BUF_CAP := by omega
  simp [ReState.storeByte, h']

theorem ReState.storeByte_read (re : ReState) (i j : Nat) (v : Byte) :
    (re.storeByte i v).buf.read j = if j = i ∧ i < BUF_CAP then v else re.buf.read j := by
  by_cases h : i < BUF_CAP
  · rw [ReState.storeByte_inside re i v h]
    simp [Memory.read_write, h]
  · rw [ReState.storeByte_outside re i v (by omega)]
    simp [h]

theorem ReState.storeByte_filled (re : ReState) (i j : Nat) (v : Byte) (hj : j < BUF_CAP) :
    (re.storeByte i v).filled[j] = (decide (i = j) || re.filled[j]) := by
  by_cases h : i < BUF_CAP
  · rw [ReState.storeByte_inside re i v h]
    by_cases hij : i = j <;> simp [hij]
  · rw [ReState.storeByte_outside re i v (by omega)]
    have : i ≠ j := by omega
    simp [this]

theorem ReState.storeByte_wf (re : ReState) (i : Nat) (v : Byte) (hm : re.buf.wf = true) :
    (re.storeByte i v).buf.wf = true := by
  by_cases h : i < BUF_CAP
  · rw [ReState.storeByte_inside re i v h]
    exact Memory.wf_write _ _ _ hm h
  · rwa [ReState.storeByte_outside re i v (by omega)]

/-! ### Storing bytes writes only `buf`, `filled` and `filled_len` -/

@[simp] theorem ReState.storeByte_re_busy (re : ReState) (i : Nat) (v : Byte) :
    (re.storeByte i v).re_busy = re.re_busy := by
  unfold ReState.storeByte
  split <;> rfl

@[simp] theorem ReState.storeByte_hdr_seen (re : ReState) (i : Nat) (v : Byte) :
    (re.storeByte i v).hdr_seen = re.hdr_seen := by
  unfold ReState.storeByte
  split <;> rfl

@[simp] theorem ReState.storeByte_exp_len (re : ReState) (i : Nat) (v : Byte) :
    (re.storeByte i v).exp_len = re.exp_len := by
  unfold ReState.storeByte
  split <;> rfl

@[simp] theorem ReState.storeByte_hdr_b0 (re : ReState) (i : Nat) (v : Byte) :
    (re.storeByte i v).hdr_b0 = re.hdr_b0 := by
  unfold ReState.storeByte
  split <;> rfl

@[simp] theorem ReState.storeByte_hdr_b1 (re : ReState) (i : Nat) (v : Byte) :
    (re.storeByte i v).hdr_b1 = re.hdr_b1 := by
  unfold ReState.storeByte
  split <;> rfl

@[simp] theorem ReState.storeByte_re_t0 (re : ReState) (i : Nat) (v : Byte) :
    (re.storeByte i v).re_t0 = re.re_t0 := by
  unfold ReState.storeByte
  split <;> rfl

@[simp] theorem ReState.storeByte_re_polls (re : ReState) (i : Nat) (v : Byte) :
    (re.storeByte i v).re_polls = re.re_polls := by
  unfold ReState.storeByte
  split <;> rfl

@[simp] theorem ReState.storeByte_buf_valid (re : ReState) (i : Nat) (v : Byte) :
    (re.storeByte i v).buf_valid = re.buf_valid := by
  unfold ReState.storeByte
  split <;> rfl

@[simp] theorem ReState.storeByte_buf_len (re : ReState) (i : Nat) (v : Byte) :
    (re.storeByte i v).buf_len = re.buf_len := by
  unfold ReState.storeByte
  split <;> rfl

@[simp] theorem ReState.storeByte_REQ_DEST (re : ReState) (i : Nat) (v : Byte) :
    (re.storeByte i v).REQ_DEST = re.REQ_DEST := by
  unfold ReState.storeByte
  split <;> rfl

@[simp] theorem ReState.storeByte_REQ_TAG (re : ReState) (i : Nat) (v : Byte) :
    (re.storeByte i v).REQ_TAG = re.REQ_TAG := by
  unfold ReState.storeByte
  split <;> rfl

@[simp] theorem ReState.storeByte_REQ_LEN (re : ReState) (i : Nat) (v : Byte) :
    (re.storeByte i v).REQ_LEN = re.REQ_LEN := by
  unfold ReState.storeByte
  split <;> rfl

@[simp] theorem ReState.storeByte_REQ_PAY (re : ReState) (i : Nat) (v : Byte) :
    (re.storeByte i v).REQ_PAY = re.REQ_PAY := by
  unfold ReState.storeByte
  split <;> rfl

@[simp] theorem ReState.storeBytes_re_busy (re : ReState) (i : Nat) (vs : List Byte) :
    (re.storeBytes i vs).re_busy = re.re_busy := by
  induction vs generalizing re i with
  | nil => rfl
  | cons v vs ih => simp [ReState.storeBytes, ih]

@[simp] theorem ReState.storeBytes_hdr_seen (re : ReState) (i : Nat) (vs : List Byte) :
    (re.storeBytes i vs).hdr_seen = re.hdr_seen := by
  induction vs generalizing re i with
  | nil => rfl
  | cons v vs ih => simp [ReState.storeBytes, ih]

@[simp] theorem ReState.storeBytes_exp_len (re : ReState) (i : Nat) (vs : List Byte) :
    (re.storeBytes i vs).exp_len = re.exp_len := by
  induction vs generalizing re i with
  | nil => rfl
  | cons v vs ih => simp [ReState.storeBytes, ih]

@[simp] theorem ReState.storeBytes_hdr_b0 (re : ReState) (i : Nat) (vs : List Byte) :
    (re.storeBytes i vs).hdr_b0 = re.hdr_b0 := by
  induction vs generalizing re i with
  | nil => rfl
  | cons v vs ih => simp [ReState.storeBytes, ih]

@[simp] theorem ReState.storeBytes_hdr_b1 (re : ReState) (i : Nat) (vs : List Byte) :
    (re.storeBytes i vs).hdr_b1 = re.hdr_b1 := by
  induction vs generalizing re i with
  | nil => rfl
  | cons v vs ih => simp [ReState.storeBytes, ih]

@[simp] theorem ReState.storeBytes_re_t0 (re : ReState) (i : Nat) (vs : List Byte) :
    (re.storeBytes i vs).re_t0 = re.re_t0 := by
  induction vs generalizing re i with
  | nil => rfl
  | cons v vs ih => simp [ReState.storeBytes, ih]

@[simp] theorem ReState.storeBytes_re_polls (re : ReState) (i : Nat) (vs : List Byte) :
    (re.storeBytes i vs).re_polls = re.re_polls := by
  induction vs generalizing re i with
  | nil => rfl
  | cons v vs ih => simp [ReState.storeBytes, ih]

@[simp] theorem ReState.storeBytes_buf_valid (re : ReState) (i : Nat) (vs : List Byte) :
    (re.storeBytes i vs).buf_valid = re.buf_valid := by
  induction vs generalizing re i with
  | nil => rfl
  | cons v vs ih => simp [ReState.storeBytes, ih]

@[simp] theorem ReState.storeBytes_buf_len (re : ReState) (i : Nat) (vs : List Byte) :
    (re.storeBytes i vs).buf_len = re.buf_len := by
  induction vs generalizing re i with
  | nil => rfl
  | cons v vs ih => simp [ReState.storeBytes, ih]

@[simp] theorem ReState.storeBytes_REQ_DEST (re : ReState) (i : Nat) (vs : List Byte) :
    (re.storeBytes i vs).REQ_DEST = re.REQ_DEST := by
  induction vs generalizing re i with
  | nil => rfl
  | cons v vs ih => simp [ReState.storeBytes, ih]

@[simp] theorem ReState.storeBytes_REQ_TAG (re : ReState) (i : Nat) (vs : List Byte) :
    (re.storeBytes i vs).REQ_TAG = re.REQ_TAG := by
  induction vs generalizing re i with
  | nil => rfl
  | cons v vs ih => simp [ReState.storeBytes, ih]

@[simp] theorem ReState.storeBytes_REQ_LEN (re : ReState) (i : Nat) (vs : List Byte) :
    (re.storeBytes i vs).REQ_LEN = re.REQ_LEN := by
  induction vs generalizing re i with
  | nil => rfl
  | cons v vs ih => simp [ReState.storeBytes, ih]

@[simp] theorem ReState.storeBytes_REQ_PAY (re : ReState) (i : Nat) (vs : List Byte) :
    (re.storeBytes i vs).REQ_PAY = re.REQ_PAY := by
  induction vs generalizing re i with
  | nil => rfl
  | cons v vs ih => simp [ReState.storeBytes, ih]

theorem ReState.storeBytes_wf (re : ReState) (i : Nat) (vs : List Byte) (hm : re.buf.wf = true) :
    (re.storeBytes i vs).buf.wf = true := by
  induction vs generalizing re i with
  | nil => exact hm
  | cons v vs ih => exact ih _ _ (re.storeByte_wf i v hm)

/-- What a run of stored bytes leaves at every index: payload byte `a - i` inside the run and the capacity, the old
byte elsewhere (R64, R65). -/
theorem ReState.storeBytes_read (re : ReState) (i : Nat) (vs : List Byte) (a : Nat) :
    (re.storeBytes i vs).buf.read a =
      if h : i ≤ a ∧ a < i + vs.length ∧ a < 50 then vs[a - i]'(by omega) else re.buf.read a := by
  induction vs generalizing re i with
  | nil =>
    rw [dif_neg (by simp; omega)]
    rfl
  | cons v vs ih =>
    rw [ReState.storeBytes, ih, ReState.storeByte_read]
    by_cases h1 : i + 1 ≤ a ∧ a < i + 1 + vs.length ∧ a < 50
    · rw [dif_pos h1, dif_pos ⟨by omega, by simp; omega, by omega⟩]
      simp [show a - i = (a - (i + 1)) + 1 by omega]
    · rw [dif_neg h1]
      by_cases h2 : a = i ∧ i < BUF_CAP
      · rw [if_pos h2, dif_pos ⟨by omega, by simp; omega, by have := h2.2; simp [BUF_CAP] at this; omega⟩]
        simp [h2.1]
      · rw [if_neg h2, dif_neg]
        simp only [BUF_CAP, List.length_cons] at h1 h2 ⊢
        omega

/-- What a run of stored bytes leaves in the fill map: the run's indices are marked, no mark is removed (R23). -/
theorem ReState.storeBytes_filled (re : ReState) (i : Nat) (vs : List Byte) (a : Nat) (ha : a < 50) :
    (re.storeBytes i vs).filled[a] = (re.filled[a] || decide (i ≤ a ∧ a < i + vs.length)) := by
  induction vs generalizing re i with
  | nil =>
    rw [decide_eq_false (by simp), Bool.or_false]
    rfl
  | cons v vs ih =>
    rw [ReState.storeBytes, ih, ReState.storeByte_filled re i a v ha, Bool.eq_iff_iff]
    simp only [Bool.or_eq_true, decide_eq_true_eq, List.length_cons]
    constructor
    · rintro ((h | h) | h)
      · exact .inr (by omega)
      · exact .inl h
      · exact .inr (by omega)
    · rintro (h | h)
      · exact .inl (.inr h)
      · by_cases hi : i = a
        · exact .inl (.inl hi)
        · exact .inr (by omega)

/-- One stored byte keeps `filled_len = popcount(filled)` and never lowers it (R24). -/
theorem ReState.storeByte_count (re : ReState) (i : Nat) (v : Byte)
    (h : re.filled_len.toNat = re.filled.count true) :
    (re.storeByte i v).filled_len.toNat = (re.storeByte i v).filled.count true ∧
      re.filled_len.toNat ≤ (re.storeByte i v).filled_len.toNat := by
  by_cases hi : i < BUF_CAP
  · rw [ReState.storeByte_inside re i v hi]
    simp only [Vector.count_set]
    cases hf : re.filled[i]
    · have hlt : re.filled.count true < 50 := by
        have h50 : re.filled.count true ≤ 50 := Vector.count_le_size
        rcases Nat.lt_or_ge (re.filled.count true) 50 with h' | h'
        · exact h'
        · have := (Vector.count_eq_size.1 (show re.filled.count true = 50 by omega)) re.filled[i] (by simp)
          rw [hf] at this
          cases this
      simp
      omega
    · have : 0 < re.filled.count true := by
        rw [Vector.count_pos_iff, ← hf]
        simp
      simp
      omega
  · rw [ReState.storeByte_outside re i v (by omega)]
    exact ⟨h, le_refl _⟩

/-- A fill map of exactly the first `n` indices has `n` marks. -/
theorem count_of_prefix (filled : Vector Bool BUF_CAP) (n : Nat) (hn : n ≤ 50)
    (h : ∀ (i : Nat) (hi : i < 50), filled[i] = decide (i < n)) : filled.count true = n := by
  have e : filled.toList = List.replicate n true ++ List.replicate (50 - n) false := by
    apply List.ext_getElem
    · simp [BUF_CAP]
      omega
    · intro i h1 h2
      simp at h1
      rw [Vector.getElem_toList, h i h1]
      by_cases hi : i < n
      · simp [hi]
      · rw [List.getElem_append_right (by simp; omega)]
        simp
        omega
  rw [← Vector.count_toList, e]
  simp [List.count_replicate]

/-- A fill map with marks only below `n` has at most `n` of them, and with `n` marks all of them are there. -/
theorem count_below (filled : Vector Bool BUF_CAP) (n : Nat) (hn : n ≤ 50)
    (h : ∀ (i : Nat) (hi : i < 50), filled[i] = true → i < n) :
    filled.count true ≤ n ∧
      (filled.count true = n → ∀ (i : Nat) (hi : i < 50), i < n → filled[i] = true) := by
  have e : filled.toList = filled.toList.take n ++ List.replicate (50 - n) false := by
    apply List.ext_getElem
    · simp [BUF_CAP]
      omega
    · intro i h1 h2
      simp at h1
      by_cases hi : i < n
      · rw [List.getElem_append_left (by simp; omega)]
        simp
      · rw [List.getElem_append_right (by simp; omega)]
        simp
        rw [← Bool.not_eq_true]
        exact fun hf => hi (h i h1 hf)
  have e2 : filled.count true = (filled.toList.take n).count true := by
    rw [← Vector.count_toList]
    conv_lhs => rw [e]
    simp [List.count_replicate]
  have hlen : (filled.toList.take n).length = n := by
    simp
    omega
  rw [e2]
  refine ⟨le_trans List.count_le_length (le_of_eq hlen), fun hc i hi hin => ?_⟩
  have h3 := List.count_eq_length.1 (hc.trans hlen.symm) (filled.toList.take n)[i]
    (List.getElem_mem (by omega))
  simpa using h3.symm

end Sys2Proof.Machine
end

