-- ==== Sys2Proof/Laws/Encoding.lean ====
section
/-! SUPPORT. Byte order, identifiers and time differences as numbers: what the bit-field helpers compute. -/

namespace Sys2Proof

open Config

/-- A concatenation as a number. -/
theorem append_toNat {m n : Nat} (x : BitVec m) (y : BitVec n) :
    (x ++ y).toNat = x.toNat * 2 ^ n + y.toNat := by
  rw [BitVec.toNat_append, ← Nat.shiftLeft_add_eq_or_of_lt y.isLt, Nat.shiftLeft_eq]

theorem be16_toNat (a b : Byte) : (be16 a b).toNat = a.toNat * 256 + b.toNat := append_toNat a b

theorem byteOf_toNat (d : Dword) (k : Nat) : (byteOf d k).toNat = d.toNat / 2 ^ (56 - 8 * k) % 256 := by
  simp [byteOf, Nat.shiftRight_eq_div_pow]

theorem be32_toNat (a b c d : Byte) :
    (be32 a b c d).toNat = (a.toNat * 256 + b.toNat) * 65536 + (c.toNat * 256 + d.toNat) := by
  simp only [be32, append_toNat]
  norm_num

/-- A packed array has its bytes where R62 puts them. -/
theorem byteOf_packBytes (b : Vector Byte 8) (k : Nat) (h : k < 8) : byteOf (packBytes b) k = b[k] := by
  apply BitVec.eq_of_toNat_eq
  have := (b[0]).isLt
  have := (b[1]).isLt
  have := (b[2]).isLt
  have := (b[3]).isLt
  have := (b[4]).isLt
  have := (b[5]).isLt
  have := (b[6]).isLt
  have := (b[7]).isLt
  rw [byteOf_toNat, packBytes, append_toNat, be32_toNat, be32_toNat]
  interval_cases k <;> norm_num <;> omega

/-- The bytes of a 64-bit port, one by one (R62). -/
theorem unpackBytes_getElem (d : Dword) (k : Nat) (h : k < 8) : (unpackBytes d)[k] = byteOf d k := by
  interval_cases k <;> rfl

/-- What is packed is read back. -/
@[simp] theorem unpackBytes_packBytes (b : Vector Byte 8) : unpackBytes (packBytes b) = b := by
  apply Vector.ext
  intro k h
  rw [unpackBytes_getElem _ _ h, byteOf_packBytes]

theorem cid_toNat (t n : Byte) : (cid t n).toNat = 0x80000000 + t.toNat * 256 + n.toNat := by
  have ht := t.isLt
  have hn := n.isLt
  have h1 : (0x80000000 ||| t.toNat <<< 8 : Nat) = (0x800000 + t.toNat) <<< 8 := by
    have : (0x800000 ||| t.toNat : Nat) = 0x800000 + t.toNat := by
      have := Nat.shiftLeft_add_eq_or_of_lt (i := 8) (b := t.toNat) (by omega) 0x8000
      simpa using this.symm
    rw [← this, Nat.shiftLeft_or_distrib]
    rfl
  have h2 := Nat.shiftLeft_add_eq_or_of_lt (i := 8) (b := n.toNat) (by omega) (0x800000 + t.toNat)
  have h3 : (t.toNat % 2 ^ 32) <<< 8 % 2 ^ 32 = t.toNat <<< 8 := by
    simp only [Nat.shiftLeft_eq]
    omega
  simp only [cid, BitVec.toNat_or, BitVec.toNat_shiftLeft, BitVec.toNat_setWidth, BitVec.toNat_ofNat]
  rw [h3, Nat.mod_eq_of_lt (show n.toNat < 2 ^ 32 by omega),
    show (2147483648 % 2 ^ 32 : Nat) = 0x80000000 from rfl, h1, ← h2, Nat.shiftLeft_eq]
  omega

/-- An identifier is `FILL_ID` iff its number is R95's. -/
theorem eq_fillId_iff (p : Params) (id : Word) :
    id = fillId p ↔ id.toNat = 0x80000000 + p.TAG_FILL.toNat * 256 + p.OWN_ID.toNat := by
  rw [← cid_toNat, BitVec.toNat_inj]
  rfl

/-- An identifier is `HDR_ID` iff its number is R95's. -/
theorem eq_hdrId_iff (p : Params) (id : Word) :
    id = hdrId p ↔ id.toNat = 0x80000000 + p.TAG_HDR.toNat * 256 + p.OWN_ID.toNat := by
  rw [← cid_toNat, BitVec.toNat_inj]
  rfl

/-- The two receive classes never share an identifier (R9, R95). -/
theorem fillId_ne_hdrId (p : Params) (hp : p.ok) : fillId p ≠ hdrId p := by
  intro h
  have h' := congrArg BitVec.toNat h
  rw [fillId, hdrId, cid_toNat, cid_toNat] at h'
  exact hp.tags_differ (BitVec.eq_of_toNat_eq (by omega))

theorem Frame.bytes_length (f : Frame) : f.bytes.length = min f.length.toNat 8 := by
  simp [Frame.bytes]

/-- The meaningful bytes of a frame made of at most eight bytes are those bytes (R92, R93). -/
theorem frameOf_bytes (id : Word) (l : List Byte) (h : l.length ≤ 8) : (frameOf id l).bytes = l := by
  have hl : (frameOf id l).length.toNat = l.length := by
    simp [frameOf]
    omega
  rw [Frame.bytes, hl]
  apply List.ext_getElem
  · simp [frameOf]
    omega
  · intro k h1 h2
    have hk : k < 8 := by omega
    rw [List.getElem_take]
    have : ∀ (j : Nat) (hj : j < 8), (frameOf id l).data.toList[j]'(by simpa using hj) = l.getD j 0 := by
      intro j hj
      interval_cases j <;> rfl
    rw [this k hk, List.getD_eq_getElem?_getD]
    simp [h2]

/-- A command word as a number (R100). -/
theorem commandWord_toNat (op a : Byte) (d : Dword) :
    (commandWord op a d).toNat = op.toNat * 2 ^ 72 + a.toNat * 2 ^ 64 + d.toNat := by
  simp only [commandWord, append_toNat]
  omega

/-- The field `op` as a number (R100). -/
theorem cmdOp_toNat (w : BitVec 80) : (cmdOp w).toNat = w.toNat / 2 ^ 72 := by
  have := w.isLt
  simp [cmdOp, Nat.shiftRight_eq_div_pow]
  omega

/-- The field `a` as a number (R100). -/
theorem cmdA_toNat (w : BitVec 80) : (cmdA w).toNat = w.toNat / 2 ^ 64 % 2 ^ 8 := by
  simp [cmdA, Nat.shiftRight_eq_div_pow]

/-- The field `d` as a number (R100). -/
theorem cmdD_toNat (w : BitVec 80) : (cmdD w).toNat = w.toNat % 2 ^ 64 := by
  simp [cmdD]

@[simp] theorem cmdOp_commandWord (op a : Byte) (d : Dword) : cmdOp (commandWord op a d) = op := by
  have ha := a.isLt
  have hd := d.isLt
  apply BitVec.eq_of_toNat_eq
  rw [cmdOp_toNat, commandWord_toNat]
  omega

@[simp] theorem cmdA_commandWord (op a : Byte) (d : Dword) : cmdA (commandWord op a d) = a := by
  have ha := a.isLt
  have hd := d.isLt
  apply BitVec.eq_of_toNat_eq
  rw [cmdA_toNat, commandWord_toNat]
  omega

@[simp] theorem cmdD_commandWord (op a : Byte) (d : Dword) : cmdD (commandWord op a d) = d := by
  have hd := d.isLt
  apply BitVec.eq_of_toNat_eq
  rw [cmdD_toNat, commandWord_toNat]
  omega

/-- A command word is its three fields (R100). -/
theorem commandWord_fields (w : BitVec 80) : commandWord (cmdOp w) (cmdA w) (cmdD w) = w := by
  have hw := w.isLt
  apply BitVec.eq_of_toNat_eq
  rw [commandWord_toNat, cmdOp_toNat, cmdA_toNat, cmdD_toNat]
  omega

end Sys2Proof

namespace Sys2Proof.Machine

open Config

theorem tdiff_elapsed (a b : Time) : tdiff a b = elapsed a b := by
  unfold tdiff elapsed
  rw [BitVec.toNat_sub]
  have := a.isLt
  have := b.isLt
  omega

theorem byteOf_portByte (d : Dword) (k : Nat) : (byteOf d k).toNat = portByte d k := byteOf_toNat d k

/-- The receive ports of an answer carry that answer (R53). -/
@[simp] theorem RxPort.frame_ofFrame (a : Option Frame) : (RxPort.ofFrame a).frame = a := by
  cases a <;> simp [RxPort.ofFrame, RxPort.frame]

theorem payByte_toNat (d : BitVec 56) (k : Nat) :
    (payByte d k).toNat = d.toNat / 2 ^ (48 - 8 * k) % 256 := by
  simp [payByte, Nat.shiftRight_eq_div_pow]

theorem Memory.read16_toNat (m : Memory) (i : Nat) : (m.read16 i).toNat = field16 m i := be16_toNat _ _

theorem Memory.read32_toNat (m : Memory) (i : Nat) : (m.read32 i).toNat = field32 m i :=
  be32_toNat _ _ _ _

theorem s16_signed (u : Half) : s16 u = signed 16 u.toNat := by simp [s16, signed]

theorem s32_signed (u : Word) : s32 u = signed 32 u.toNat := by simp [s32, signed]

theorem bit_toNat (b : Bool) : (bit b).toNat = flag b := by cases b <;> rfl

/-- `RE_STATUS` as a number (R48). -/
theorem reStatus_toNat (re : ReState) :
    (reStatus re).toNat =
      flag re.re_busy + 2 * flag re.buf_valid + 4 * flag re.hdr_seen + 2 ^ 8 * re.filled_len.toNat +
        2 ^ 16 * re.exp_len.toNat + 2 ^ 32 * re.hdr_b0.toNat + 2 ^ 40 * re.hdr_b1.toNat +
        2 ^ 48 * re.buf_len.toNat := by
  simp only [reStatus, append_toNat, bit_toNat, BitVec.toNat_ofNat]
  omega

/-- `SNAP_VALID` as a number (R49). -/
theorem snapValid_toNat (td : TdState) :
    (snapValid td).toNat = flag td.snap_rt_valid + 2 * flag td.snap_bal_valid + 4 * flag td.bc_valid := by
  simp only [snapValid, append_toNat, bit_toNat]
  omega

/-- `AS_STATUS` as a number (R49). -/
theorem asStatus_toNat (sch : AsState) :
    (asStatus sch).toNat =
      sch.prio.code.toNat + 4 * flag sch.sch_init + 8 * flag sch.duty_fired + 16 * flag sch.lowv_fired := by
  simp only [asStatus, append_toNat, bit_toNat]
  omega

/-- A frame made of an identifier of R94 and at most seven data bytes is on the send ports the frame R98 describes. -/
theorem frameOf_frameIs (tag dest : Byte) (l : List Byte) (byte : Nat → Nat) (hl : l.length ≤ 7)
    (hb : ∀ (k : Nat) (h : k < l.length), (l[k]).toNat = byte k) :
    FrameIs (TxPort.ofFrame (frameOf (cid tag dest) l)) tag dest l.length byte := by
  refine ⟨cid_toNat _ _, ?_, ?_⟩
  · simp [TxPort.ofFrame, frameOf]
    omega
  · intro k h
    rw [TxPort.ofFrame, ← byteOf_portByte, byteOf_packBytes _ _ h]
    have e : (frameOf (cid tag dest) l).data[k] = l.getD k 0 := by interval_cases k <;> rfl
    rw [e, List.getD_eq_getElem?_getD]
    split
    · next hk => simp [hk, hb k hk]
    · next hk => simp [hk]

end Sys2Proof.Machine
end

