-- ==== Sys2Proof/Laws/Machine.lean ====
section
/-! SUPPORT. Once for each shared operation, condition and step: everything it can do. -/

namespace Sys2Proof.Machine

open Config

/-! ### Conditions -/

theorem boundReached_iff (s : State) :
    boundReached s = true ↔
      s.cfg.MAX_POLLS ≤ s.re.re_polls ∨ s.cfg.WINDOW_MS ≤ elapsed s.port.now_ms s.re.re_t0 := by
  simp [boundReached, State.now, tdiff_elapsed]

theorem complete_iff (re : ReState) :
    complete re = true ↔ re.hdr_seen = true ∧ re.exp_len.toNat ≤ re.filled_len.toNat := by
  simp [complete]

theorem validates_iff (re : ReState) :
    validates re = true ↔ re.hdr_seen = true ∧ re.filled_len.toNat = re.exp_len.toNat := by
  simp [validates]

theorem noData_iff (s : State) : noData s = true ↔ s.re.re_busy = true ∨ s.re.buf_valid = false := by
  simp [noData]

theorem pulseDue_iff (s : State) :
    pulseDue s = true ↔ s.cfg.TONE_TICK_MS ≤ elapsed s.port.now_ms s.sch.tone_last := by
  simp [pulseDue, State.now, tdiff_elapsed]

/-! ### The engine -/

/-- RE.END leaves one of two records (R130). -/
theorem ReState.endCycle_cases (re : ReState) :
    (re.hdr_seen = true ∧ re.filled_len.toNat = re.exp_len.toNat ∧
      re.endCycle = { re with buf_valid := true, buf_len := re.filled_len, re_busy := false }) ∨
    (¬(re.hdr_seen = true ∧ re.filled_len.toNat = re.exp_len.toNat) ∧
      re.endCycle = { re with buf_valid := false, buf_len := 0, re_busy := false }) := by
  rw [ReState.endCycle]
  split
  · next h => exact .inl ⟨((validates_iff re).1 h).1, ((validates_iff re).1 h).2, rfl⟩
  · next h => exact .inr ⟨fun h' => h ((validates_iff re).2 h'), rfl⟩

@[simp] theorem ReState.accept_re_busy (re : ReState) (a : Answer) :
    (re.accept a).re_busy = re.re_busy := by cases a <;> simp [ReState.accept, ReState.fill]

@[simp] theorem ReState.accept_re_t0 (re : ReState) (a : Answer) :
    (re.accept a).re_t0 = re.re_t0 := by cases a <;> simp [ReState.accept, ReState.fill]

@[simp] theorem ReState.accept_re_polls (re : ReState) (a : Answer) :
    (re.accept a).re_polls = re.re_polls := by cases a <;> simp [ReState.accept, ReState.fill]

@[simp] theorem ReState.accept_buf_valid (re : ReState) (a : Answer) :
    (re.accept a).buf_valid = re.buf_valid := by cases a <;> simp [ReState.accept, ReState.fill]

@[simp] theorem ReState.accept_buf_len (re : ReState) (a : Answer) :
    (re.accept a).buf_len = re.buf_len := by cases a <;> simp [ReState.accept, ReState.fill]

@[simp] theorem ReState.accept_REQ_DEST (re : ReState) (a : Answer) :
    (re.accept a).REQ_DEST = re.REQ_DEST := by cases a <;> simp [ReState.accept, ReState.fill]

@[simp] theorem ReState.accept_REQ_TAG (re : ReState) (a : Answer) :
    (re.accept a).REQ_TAG = re.REQ_TAG := by cases a <;> simp [ReState.accept, ReState.fill]

@[simp] theorem ReState.accept_REQ_LEN (re : ReState) (a : Answer) :
    (re.accept a).REQ_LEN = re.REQ_LEN := by cases a <;> simp [ReState.accept, ReState.fill]

@[simp] theorem ReState.accept_REQ_PAY (re : ReState) (a : Answer) :
    (re.accept a).REQ_PAY = re.REQ_PAY := by cases a <;> simp [ReState.accept, ReState.fill]

/-- The tail of an iteration is RE.END or nothing (R129). -/
theorem ReState.earlyExit_cases (re : ReState) :
    (complete re = true ∧ re.earlyExit = re.endCycle) ∨
      (complete re = false ∧ re.earlyExit = re) := by
  rw [ReState.earlyExit]
  split
  · next h => exact .inl ⟨h, rfl⟩
  · next h => exact .inr ⟨by simpa using h, rfl⟩

/-- An answer class run as an instruction is what it does to the engine (R123, R124, R126, R127). -/
theorem exec_answer (a : Answer) (s : State) :
    exec a.toInstr s = .next { s with re := s.re.accept a } := by
  cases a <;> rfl

/-- RE.POLL is idle, RE.END, or one iteration (R122). -/
theorem execRePoll_cases (s : State) :
    (s.re.re_busy = false ∧ execRePoll s = .next s) ∨
    (s.re.re_busy = true ∧ boundReached s = true ∧
      execRePoll s = .next { s with re := s.re.endCycle }) ∨
    (s.re.re_busy = true ∧ boundReached s = false ∧ execRePoll s = .next s.iterate) := by
  rw [execRePoll]
  cases hb : s.re.re_busy
  · exact .inl ⟨rfl, by simp⟩
  · cases hr : boundReached s
    · exact .inr (.inr ⟨rfl, rfl, by simp⟩)
    · exact .inr (.inl ⟨rfl, rfl, by simp⟩)

/-- An iteration changes the engine, the transport's answers, the free count and the outputs. -/
theorem State.iterate_eq (s : State) :
    s.iterate =
      { s with
        re :=
          (ReState.accept { s.re with re_polls := s.re.re_polls + 1 }
            (classify s.cfg s.nextAnswer)).earlyExit
        rxAnswers := s.rxAnswers.tail
        free := if s.rxAnswers.isEmpty then s.free + 1 else s.free
        outs := .rxPoll :: s.outs } := rfl

/-- RE.START answers `E_BADSEL` or begins a cycle (R120). -/
theorem execReStart_cases (sel : Byte) (s : State) :
    execReStart sel s = .next (s.fail .badSel) ∨
      ∃ r, requestOf sel = some r ∧
        execReStart sel s =
          .next ((s.clearCycle.send (descriptor s r)).setBusy.respond .ok 0) := by
  rw [execReStart]
  cases h : requestOf sel with
  | none => exact .inl rfl
  | some r => exact .inr ⟨r, rfl, rfl⟩

/-- RE.RD answers and changes nothing (R132). -/
theorem execReRd_cases (i : Byte) (s : State) :
    ∃ c v, execReRd i s = .next (s.respond c v) ∧ (c ≠ .ok → v = 0) := by
  rw [execReRd]
  split
  · exact ⟨_, _, rfl, fun _ => rfl⟩
  · split
    · exact ⟨_, _, rfl, fun _ => rfl⟩
    · exact ⟨_, _, rfl, fun h => absurd rfl h⟩

/-! ### The telemetry decoder -/

/-- TD.DECODE fails, or applies one shape (R150). -/
theorem execTdDecode_cases (tag : Byte) (s : State) :
    (∃ c, c ≠ .ok ∧ execTdDecode tag s = .next (s.fail c)) ∨
      ∃ m, shapeOf s.cfg tag s.re.buf_len = some m ∧ noData s = false ∧
        execTdDecode tag s = .next ({ s with td := s.td.take s.re.buf m }.respond .ok 0) := by
  rw [execTdDecode]
  split
  · exact .inl ⟨_, by decide, rfl⟩
  · next hn =>
    split
    · exact .inl ⟨_, by decide, rfl⟩
    · split
      · exact .inl ⟨_, by decide, rfl⟩
      · split
        · exact .inl ⟨_, by decide, rfl⟩
        · next m hm => exact .inr ⟨m, hm, by simpa using hn, rfl⟩

/-- TD.BCAST fails, or takes the payload (R154). -/
theorem execTdBcast_cases (n : Byte) (d : Dword) (s : State) :
    (∃ c, c ≠ .ok ∧ execTdBcast n d s = .next (s.fail c)) ∨
      (s.cfg.HAS_BCAST = true ∧ n = LEN_BC ∧
        execTdBcast n d s = .next ({ s with td := s.td.takeBroadcast d }.respond .ok 0)) := by
  rw [execTdBcast]
  split
  · exact .inl ⟨_, by decide, rfl⟩
  · next h =>
    split
    · exact .inl ⟨_, by decide, rfl⟩
    · next h' => exact .inr ⟨by simpa using h, by simpa using h', rfl⟩

/-! ### The scheduler -/

/-- AS.INIT fails, or initialises and queues the chime if it is enabled (R170). -/
theorem execAsInit_cases (s : State) :
    (s.sch.sch_init = true ∧ execAsInit s = .next (s.fail .already)) ∨
      (s.sch.sch_init = false ∧
        execAsInit s =
          .next ({ s.queueChime with sch := s.sch.initialised s.now }.respond .ok 0)) := by
  rw [execAsInit]
  cases h : s.sch.sch_init
  · exact .inr ⟨rfl, by simp⟩
  · exact .inl ⟨rfl, by simp⟩

theorem State.queueChime_eq (s : State) :
    s.queueChime =
      { s with
        outs := (if s.sch.CFG_CHIME_EN then [.toneEnqueue .startupChime] else []) ++ s.outs } := by
  rw [State.queueChime]
  split <;> simp [State.emit]

theorem State.drivePulse_eq (s : State) :
    s.drivePulse =
      { s with
        sch := { s.sch with tone_last := if pulseDue s then s.now else s.sch.tone_last }
        outs := (if pulseDue s then [.toneTick] else []) ++ s.outs } := by
  rw [State.drivePulse]
  split <;> simp

theorem State.detectIdle_eq (s : State) :
    s.detectIdle =
      { s with sch := { s.sch with prio := if s.port.tone_busy then s.sch.prio else .none } } := by
  rw [State.detectIdle]
  split <;> simp

theorem State.dutyStep_eq (s : State) :
    s.dutyStep =
      { s with
        sch :=
          { s.sch with
            prio := if dutyFires s then .dutyCycle else s.sch.prio
            duty_last := if dutyFires s then s.now else s.sch.duty_last
            duty_fired := s.sch.duty_fired || dutyFires s }
        outs := (if dutyFires s then [.toneEnqueue .singleBeep] else []) ++ s.outs } := by
  rw [State.dutyStep]
  split <;> simp [*]

theorem State.lowvStep_eq (s : State) :
    s.lowvStep =
      { s with
        sch :=
          { s.sch with
            prio := if lowvFires s then .lowVoltage else s.sch.prio
            lowv_last := if lowvFires s then s.now else s.sch.lowv_last
            lowv_fired := s.sch.lowv_fired || lowvFires s }
        outs := (if lowvFires s then [.toneEnqueue .descending] else []) ++ s.outs } := by
  rw [State.lowvStep]
  split <;> simp [*]

/-- Step 4 of a tick cannot fire where step 3 did (R171, R176). -/
theorem lowvFires_after_duty (s : State) (h : dutyFires s = true) : lowvFires s.dutyStep = false := by
  rw [State.dutyStep_eq]
  simp [lowvFires, h, admits, Priority.code]

/-- The four steps of a tick as one record, in terms of what each of them decided (R171 to R175). -/
theorem State.tick_eq (s : State) (pulse duty lowv : Bool) (hp : pulseDue s = pulse)
    (hd : dutyFires s.drivePulse.detectIdle = duty)
    (hl : lowvFires s.drivePulse.detectIdle.dutyStep = lowv) :
    s.drivePulse.detectIdle.dutyStep.lowvStep =
      { s with
        sch :=
          { s.sch with
            prio :=
              if lowv then .lowVoltage else if duty then .dutyCycle
              else if s.port.tone_busy then s.sch.prio else .none
            tone_last := if pulse then s.port.now_ms else s.sch.tone_last
            duty_last := if duty then s.port.now_ms else s.sch.duty_last
            duty_fired := s.sch.duty_fired || duty
            lowv_last := if lowv then s.port.now_ms else s.sch.lowv_last
            lowv_fired := s.sch.lowv_fired || lowv }
        outs :=
          (if lowv then [.toneEnqueue .descending] else []) ++
            ((if duty then [.toneEnqueue .singleBeep] else []) ++
              ((if pulse then [.toneTick] else []) ++ s.outs)) } := by
  rw [State.lowvStep_eq, hl, State.dutyStep_eq, hd, State.detectIdle_eq, State.drivePulse_eq, hp]
  rfl

/-- AS.TICK fails, or runs its four steps and answers `pulse * 4 + q` (R171). -/
theorem execAsTick_cases (s : State) :
    (s.sch.sch_init = false ∧ execAsTick s = .next (s.fail .notInit)) ∨
      (s.sch.sch_init = true ∧
        execAsTick s =
          .next (s.drivePulse.detectIdle.dutyStep.lowvStep.respond .ok
            (tickValue (pulseDue s)
              (tickPattern (dutyFires s.drivePulse.detectIdle)
                (lowvFires s.drivePulse.detectIdle.dutyStep))))) := by
  rw [execAsTick]
  cases h : s.sch.sch_init
  · exact .inl ⟨rfl, by simp⟩
  · exact .inr ⟨rfl, by simp⟩

/-! ### Registers -/

/-- CSR.RD answers and changes nothing (R201). -/
theorem execCsrRd_cases (n : Byte) (s : State) :
    (csrOf s.cfg.HAS_BCAST n = none ∧ execCsrRd n s = .next (s.fail .badReg)) ∨
      ∃ r, csrOf s.cfg.HAS_BCAST n = some r ∧
        execCsrRd n s = .next (s.respond .ok (csrValue s r)) := by
  rw [execCsrRd]
  cases h : csrOf s.cfg.HAS_BCAST n with
  | none => exact .inl ⟨rfl, rfl⟩
  | some r => exact .inr ⟨r, rfl, rfl⟩

/-- CSR.WR fails, or stores one register (R202). -/
theorem execCsrWr_cases (n : Byte) (v : Dword) (s : State) :
    (∃ c, c ≠ .ok ∧ execCsrWr n v s = .next (s.fail c)) ∨
      ∃ r t, csrOf s.cfg.HAS_BCAST n = some r ∧ csrStore s v r = some t ∧
        execCsrWr n v s = .next (t.respond .ok 0) := by
  rw [execCsrWr]
  cases h : csrOf s.cfg.HAS_BCAST n with
  | none => exact .inl ⟨_, by decide, rfl⟩
  | some r =>
    cases h' : csrStore s v r with
    | none => exact .inl ⟨.readOnly, by decide, by simp [h']⟩
    | some t => exact .inr ⟨r, t, rfl, h', by simp [h']⟩

/-- What a register write can change: the configuration registers of each group, and nothing else (R47, R202). -/
theorem csrStore_frame (s : State) (v : Dword) (r : Csr) (t : State) (h : csrStore s v r = some t) :
    t =
      { s with
        re :=
          { s.re with
            REQ_DEST := t.re.REQ_DEST
            REQ_TAG := t.re.REQ_TAG
            REQ_LEN := t.re.REQ_LEN
            REQ_PAY := t.re.REQ_PAY }
        td := { s.td with CFG_PRES_THR := t.td.CFG_PRES_THR }
        sch :=
          { s.sch with
            CFG_DUTY_THR := t.sch.CFG_DUTY_THR
            CFG_VOLT_THR := t.sch.CFG_VOLT_THR
            CFG_DUTY_CD := t.sch.CFG_DUTY_CD
            CFG_LOWV_CD := t.sch.CFG_LOWV_CD
            CFG_CHIME_EN := t.sch.CFG_CHIME_EN } } := by
  cases r <;> cases h <;> rfl

/-! ### The step -/

/-- A step is a reset, an instruction, a refused op byte, or nothing, on the sampled ports (R15, R70). -/
theorem step_cases (s : State) :
    (s.sample.port.rst = true ∧ step s = .next s.sample.applyReset) ∨
    (∃ w i, s.sample.port.rst = false ∧ s.sample.port.cmd = some w ∧
      decode s.sample.cfg (.command w) = .ok i ∧ step s = exec i s.sample) ∨
    (∃ w r, s.sample.port.rst = false ∧ s.sample.port.cmd = some w ∧
      decode s.sample.cfg (.command w) = .error r ∧ step s = .next (s.sample.fail .badOp)) ∨
    (s.sample.port.rst = false ∧ s.sample.port.cmd = none ∧ s.sample.re.re_busy = true ∧
      step s = exec .rePoll s.sample) ∨
    (s.sample.port.rst = false ∧ s.sample.port.cmd = none ∧ s.sample.re.re_busy = false ∧
      step s = .next s.sample) := by
  rw [step, State.selected]
  cases hr : s.sample.port.rst
  · cases hc : s.sample.port.cmd with
    | none =>
      cases hb : s.sample.re.re_busy
      · exact .inr (.inr (.inr (.inr ⟨rfl, rfl, rfl, by simp⟩)))
      · exact .inr (.inr (.inr (.inl ⟨rfl, rfl, rfl, by simp⟩)))
    | some w =>
      cases hd : decode s.sample.cfg (.command w) with
      | ok i => exact .inr (.inl ⟨w, i, rfl, rfl, hd, by simp only [hd]; rfl⟩)
      | error r => exact .inr (.inr (.inl ⟨w, r, rfl, rfl, hd, by simp only [hd]; rfl⟩))
  · exact .inl ⟨rfl, by simp⟩

/-- A run of one more step goes on from the step's next state. -/
theorem run_succ (s t : State) (k : Nat) (h : step s = .next t) : core.run (k + 1) s = core.run k t := by
  have h' : core.step s = .next t := h
  simp only [Host.Core.run, h']

theorem run_zero (s : State) : core.run 0 s = .next s := rfl

@[simp] theorem turnsBefore_zero (env : Nat → Ports) : turnsBefore env 0 = 0 := rfl

/-- One more operation is one more turn of the sequencer, or none. -/
theorem turnsBefore_succ (env : Nat → Ports) (k : Nat) :
    turnsBefore env (k + 1) = turnsBefore env k + if (env k).sequencerTurn then 1 else 0 := by
  simp [turnsBefore, List.range_succ, List.countP_cons]

/-- Nothing is filled in an empty fill map. -/
theorem count_replicate_false : (Vector.replicate BUF_CAP false).count true = 0 := by decide

/-- The early exit keeps the poll count. -/
@[simp] theorem ReState.earlyExit_re_polls (re : ReState) : re.earlyExit.re_polls = re.re_polls := by
  rcases re.earlyExit_cases with ⟨_, e⟩ | ⟨_, e⟩ <;> rw [e]
  simp

/-- The early exit keeps the window's origin. -/
@[simp] theorem ReState.earlyExit_re_t0 (re : ReState) : re.earlyExit.re_t0 = re.re_t0 := by
  rcases re.earlyExit_cases with ⟨_, e⟩ | ⟨_, e⟩ <;> rw [e]
  simp

end Sys2Proof.Machine
end

