-- ==== Sys2Proof/Laws/PerInstr.lean ====
section
/-! SUPPORT. Facts about every instruction as syntax, one lemma per constructor (the family `OpByte` of LAWS.json). -/

namespace Sys2Proof.Laws.OpByte

open Config

/-- The op byte of R101, for the nine host commands. -/
def opByte : Instr → Option Byte
  | .reStart _ => some 0x10
  | .txReq => none
  | .txReqRt => none
  | .txReqBal => none
  | .rePoll => none
  | .rxNone => none
  | .rxFill _ _ => none
  | .rxHdr _ _ _ _ => none
  | .rxIgn _ => none
  | .reEnd => none
  | .reRd _ => some 0x12
  | .tdDecode _ => some 0x20
  | .msgRt => none
  | .msgBal => none
  | .tdBcast _ _ => some 0x21
  | .asInit => some 0x30
  | .asTick => some 0x31
  | .nop => some 0x00
  | .csrWr _ _ => some 0x01
  | .csrRd _ => some 0x02

/-- A host command encodes to a command word whose top byte is its op byte, and no other instruction has a command
word (R90, R100, R101). -/
def Statement (i : Instr) : Prop :=
  ∀ p : Params,
    match opByte i with
    | some op => ∃ w, encode p i = .command w ∧ w.toNat / 2 ^ 72 = op.toNat
    | none => ∀ w, encode p i ≠ .command w

/-- The word of a command has its op byte on top. -/
theorem word_op (op a : Byte) (d : Dword) : (commandWord op a d).toNat / 2 ^ 72 = op.toNat := by
  rw [← cmdOp_toNat, cmdOp_commandWord]

theorem reStart (sel : Byte) : Statement (.reStart sel) :=
  fun _ => ⟨_, rfl, word_op _ _ _⟩

theorem txReq : Statement .txReq :=
  fun _ _ h => nomatch h

theorem txReqRt : Statement .txReqRt :=
  fun _ _ h => nomatch h

theorem txReqBal : Statement .txReqBal :=
  fun _ _ h => nomatch h

theorem rePoll : Statement .rePoll :=
  fun _ _ h => nomatch h

theorem rxNone : Statement .rxNone :=
  fun _ _ h => nomatch h

theorem rxFill (offset : Byte) (payload : List Byte) : Statement (.rxFill offset payload) :=
  fun _ _ h => nomatch h

theorem rxHdr (b0 b1 : Byte) (expLen : Half) (rest : List Byte) : Statement (.rxHdr b0 b1 expLen rest) :=
  fun _ _ h => nomatch h

theorem rxIgn (f : Frame) : Statement (.rxIgn f) :=
  fun _ _ h => nomatch h

theorem reEnd : Statement .reEnd :=
  fun _ _ h => nomatch h

theorem reRd (index : Byte) : Statement (.reRd index) :=
  fun _ => ⟨_, rfl, word_op _ _ _⟩

theorem tdDecode (tag : Byte) : Statement (.tdDecode tag) :=
  fun _ => ⟨_, rfl, word_op _ _ _⟩

theorem msgRt : Statement .msgRt :=
  fun _ _ h => nomatch h

theorem msgBal : Statement .msgBal :=
  fun _ _ h => nomatch h

theorem tdBcast (len : Byte) (d : Dword) : Statement (.tdBcast len d) :=
  fun _ => ⟨_, rfl, word_op _ _ _⟩

theorem asInit : Statement .asInit :=
  fun _ => ⟨_, rfl, word_op _ _ _⟩

theorem asTick : Statement .asTick :=
  fun _ => ⟨_, rfl, word_op _ _ _⟩

theorem nop : Statement .nop :=
  fun _ => ⟨_, rfl, word_op _ _ _⟩

theorem csrWr (num : Byte) (value : Dword) : Statement (.csrWr num value) :=
  fun _ => ⟨_, rfl, word_op _ _ _⟩

theorem csrRd (num : Byte) : Statement (.csrRd num) :=
  fun _ => ⟨_, rfl, word_op _ _ _⟩

end Sys2Proof.Laws.OpByte
end

