-- ==== Sys2Proof/Tests/Slice0.lean ====
section
/-! SUPPORT. Tests: the well-formedness smoke, words written out from the spec's encodings, the spec's vectors
(95_test_vectors.md) as single steps, and a witness for every obligation with hypotheses. Parameters P0. -/

namespace Sys2Proof.Tests

open Config Machine

/-! ### Helpers -/

/-- The next state of one instruction, or the state itself where there is none. -/
def after (i : Instr) (s : State) : State :=
  match exec i s with
  | .next t => t
  | .fault _ => s
  | .refused _ => s

/-- The next state of one step. -/
def stepped (s : State) : State :=
  match step s with
  | .next t => t
  | .fault _ => s
  | .refused _ => s

/-- A sample at a time with a command or none and an idle Tone Driver. -/
def sampleAt (now : Time) (cmd : Option (BitVec 80)) : Ports where
  rst := false
  now_ms := now
  cmd := cmd
  tone_busy := false

/-- A state whose next operation is a host command word. -/
def withCommand (s : State) (now : Time) (w : BitVec 80) : State :=
  { s with script := [sampleAt now (some w)] }

/-- A state whose next operation is the sequencer's, with one answer waiting. -/
def withPoll (s : State) (now : Time) (a : Option Frame) : State :=
  { s with script := [sampleAt now none], rxAnswers := [RxPort.ofFrame a] }

/-- A collection begun at 100 ms, nothing received. -/
def collecting : State :=
  { State.reset with re := { ReState.reset with re_busy := true, re_t0 := 100 }, port := sampleAt 100 none }

/-- The engine after the fragments and the header of the document's worked example, before RE.END (S1). -/
def exampleEngine : ReState :=
  (({ ReState.reset with re_busy := true }.fill 0 [0x32, 0x11, 0x22, 0x33, 0x44, 0x55, 0x66]).fill 7
    [0x77, 0x88, 0x03, 0x20, 0x00, 0x00, 0x00]).fill 14 [0x00, 0x01, 0xF4, 0xAA] |>.header 0x02 0x01 18

/-- The worked example published (S1). -/
def exampleBuffer : State := { State.reset with re := exampleEngine.endCycle }

/-- A balance buffer published: tag 0x4F, length 37, all fields 0x00. -/
def balanceBuffer : State :=
  { State.reset with re := ReState.reset.shaped 0x4F 37 }

/-- A buffer of declared length 4 with a hole at index 3 and a byte at index 10 (R131 d). -/
def holeBuffer : State :=
  { State.reset with
    re := (((ReState.reset.fill 0 [1, 2, 3]).fill 10 [4]).header 0 0 4).endCycle }

/-- An initialised scheduler with a duty reading of 850 against 800 and a voltage of 400 against 420, at 1000 ms
with a busy driver (AS-14). -/
def alerting : State :=
  { State.reset with
    td := { TdState.reset with snap_duty := 850, snap_volt := 400, snap_rt_valid := true }
    sch := { AsState.reset with sch_init := true, CFG_DUTY_THR := 800, CFG_VOLT_THR := 420 }
    port := { rst := false, now_ms := 1000, cmd := none, tone_busy := true } }

/-! ### Well-formedness: every check refuses an ill-formed term -/

theorem test_wf_fill_seven : WellFormed p0 (.rxFill 0 [1, 2, 3, 4, 5, 6, 7]) = true := by decide

theorem test_wf_fill_eight : WellFormed p0 (.rxFill 0 [1, 2, 3, 4, 5, 6, 7, 8]) = false := by decide

theorem test_wf_header_five : WellFormed p0 (.rxHdr 0 0 0 [1, 2, 3, 4, 5]) = false := by decide

theorem test_wf_ignored_is_fill :
    WellFormed p0 (.rxIgn { id := 0x80000502, length := 1, data := #v[0, 0, 0, 0, 0, 0, 0, 0] }) =
      false := by decide

theorem test_wf_ignored_is_header :
    WellFormed p0 (.rxIgn { id := 0x80000702, length := 4, data := #v[0, 0, 0, 0, 0, 0, 0, 0] }) =
      false := by decide

theorem test_wf_ignored_short_header :
    WellFormed p0 (.rxIgn { id := 0x80000702, length := 3, data := #v[0, 0, 0, 0, 0, 0, 0, 0] }) =
      true := by decide

/-! ### Decoding: a word from the spec's encoding for every instruction -/

/-- R101: op 0x10, `a` = 2. -/
theorem test_decode_reStart : decode p0 (.command 0x10020000000000000000) = .ok (.reStart 2) := by decide

/-- R121: `sel` = 0. -/
theorem test_decode_txReq : decode p0 (.request 0) = .ok .txReq := by decide

/-- R121: `sel` = 1; under P0 the emitted identifier is 0x8000080A (R98). -/
theorem test_decode_txReqRt :
    decode p0 (.request 1) = .ok .txReqRt ∧ cid p0.TAG_REQ_RT p0.PEER_ID = 0x8000080A := by decide

/-- R121: `sel` = 2; 3 is no selector. -/
theorem test_decode_txReqBal :
    decode p0 (.request 2) = .ok .txReqBal ∧ decode p0 (.request 3) = .error (.badSelector 3) := by decide

/-- R90: a sequencer step with no bound reached. -/
theorem test_decode_rePoll : decode p0 (.sequencer false) = .ok .rePoll := by decide

/-- R95: `rx_valid = 0`. -/
theorem test_decode_rxNone : decode p0 (.answer none) = .ok .rxNone := by decide

/-- R95, R96, RE-3: `07 11 22 33` with identifier 0x80000502 and length 4. -/
theorem test_decode_rxFill :
    decode p0 (.answer (some { id := 0x80000502, length := 4, data := #v[7, 0x11, 0x22, 0x33, 9, 9, 9, 9] })) =
      .ok (.rxFill 7 [0x11, 0x22, 0x33]) := by decide

/-- R95, R97: `02 01 01 2C 00 00` with identifier 0x80000702 declares 300. -/
theorem test_decode_rxHdr :
    decode p0 (.answer (some { id := 0x80000702, length := 6, data := #v[2, 1, 1, 0x2C, 0, 0, 9, 9] })) =
      .ok (.rxHdr 2 1 300 [0, 0]) := by decide

/-- R127, RE-8: a fill identifier with length 0 or 9 is ignored, and with length 1 it is not (RE-7). -/
theorem test_decode_rxIgn :
    (decode p0 (.answer (some { id := 0x80000502, length := 9, data := #v[0, 1, 2, 3, 4, 5, 6, 7] })) =
      .ok (.rxIgn { id := 0x80000502, length := 9, data := #v[0, 1, 2, 3, 4, 5, 6, 7] })) ∧
    (decode p0 (.answer (some { id := 0x80000502, length := 0, data := #v[0, 1, 2, 3, 4, 5, 6, 7] })) =
      .ok (.rxIgn { id := 0x80000502, length := 0, data := #v[0, 1, 2, 3, 4, 5, 6, 7] })) ∧
    (decode p0 (.answer (some { id := 0x80000502, length := 1, data := #v[5, 0, 0, 0, 0, 0, 0, 0] })) =
      .ok (.rxFill 5 [])) := by decide

/-- R90: a sequencer step at a bound. -/
theorem test_decode_reEnd : decode p0 (.sequencer true) = .ok .reEnd := by decide

/-- R101: op 0x12, `a` = 17. -/
theorem test_decode_reRd : decode p0 (.command 0x12110000000000000000) = .ok (.reRd 17) := by decide

/-- R101: op 0x20, `a` = 0x4F. -/
theorem test_decode_tdDecode : decode p0 (.command 0x204F0000000000000000) = .ok (.tdDecode 0x4F) := by decide

/-- R99: tag 0x32, length 18; length 17 is no shape. -/
theorem test_decode_msgRt :
    decode p0 (.shape 0x32 18) = .ok .msgRt ∧ decode p0 (.shape 0x32 17) = .error (.noShape 0x32 17) := by
  decide

/-- R99: tag 0x4F, length 37; length 18 is no shape. -/
theorem test_decode_msgBal :
    decode p0 (.shape 0x4F 37) = .ok .msgBal ∧ decode p0 (.shape 0x4F 18) = .error (.noShape 0x4F 18) := by
  decide

/-- TD-13: `0x21_08_00C80032FF9C03E8`. -/
theorem test_decode_tdBcast :
    decode p0 (.command 0x210800C80032FF9C03E8) = .ok (.tdBcast 8 0x00C80032FF9C03E8) := by decide

/-- AS-2: `0x30_00_0000000000000000`. -/
theorem test_decode_asInit : decode p0 (.command 0x30000000000000000000) = .ok .asInit := by decide

/-- R101: op 0x31; operand bits are ignored (R100). -/
theorem test_decode_asTick : decode p0 (.command 0x31FFFFFFFFFFFFFFFFFF) = .ok .asTick := by decide

/-- H-1: op 0x00 with every operand bit set. -/
theorem test_decode_nop : decode p0 (.command 0x00FFFFFFFFFFFFFFFFFF) = .ok .nop := by decide

/-- H-5: `0x01_00_0000000000012345`. -/
theorem test_decode_csrWr :
    decode p0 (.command 0x01000000000000012345) = .ok (.csrWr 0 0x12345) := by decide

/-- R101: op 0x02, `a` = 0x10. -/
theorem test_decode_csrRd : decode p0 (.command 0x02100000000000000000) = .ok (.csrRd 0x10) := by decide

/-- H-8: op 0x11 is undefined. -/
theorem test_decode_undefined :
    decode p0 (.command 0x11000000000000000000) = .error (.undefinedOp 0x11) := by decide

/-- The encoder writes the same words (RE-1, RE-3). -/
theorem test_encode :
    encode p0 (.reStart 1) = .command 0x10010000000000000000 ∧
      encode p0 (.rxFill 7 [0x11, 0x22, 0x33]) =
        .answer (some { id := 0x80000502, length := 4, data := #v[7, 0x11, 0x22, 0x33, 0, 0, 0, 0] }) := by
  decide

/-! ### The words of the operation table -/

theorem test_table_words :
    decodeTableWord 80 0x31000000000000000000 = some .asTick ∧
      decodeTableWord 32 0x8000080A = some .txReqRt ∧
      decodeTableWord 32 0x80000702 = some (.rxHdr 0 0 0 [0, 0, 0, 0]) ∧
      decodeTableWord 8 0x32 = some .msgRt ∧ decodeTableWord 8 0x4F = some .msgBal ∧
      decodeTableWord 80 0x11000000000000000000 = none := by decide

theorem test_fetch_word_command :
    (stepped (State.reset.withFetchWord 80 0x02020000000000000000)).outs = [.respond .ok 1000] := by decide

theorem test_fetch_word_frame :
    (stepped (State.reset.withFetchWord 32 0x80000702)).re.hdr_seen = true ∧
      (stepped (State.reset.withFetchWord 32 0x80000702)).re.re_polls = 1 := by decide

theorem test_fetch_word_request :
    (stepped (State.reset.withFetchWord 32 0x8000080A)).outs =
      [.respond .ok 0,
        .tx { tx_id := 0x8000080A, tx_len := 7, tx_data := 0x020032000081C300 }] := by decide

theorem test_fetch_word_shape :
    (stepped (State.reset.withFetchWord 8 0x4F)).td.snap_bal_valid = true ∧
      (stepped (State.reset.withFetchWord 8 0x32)).td.snap_rt_valid = true := by decide

/-! ### The reassembly engine, one step each -/

/-- RE-1. -/
theorem test_reStart :
    let t := stepped (withCommand State.reset 100 0x10010000000000000000)
    t.outs = [.respond .ok 0,
      .tx { tx_id := 0x8000080A, tx_len := 7, tx_data := 0x020032000081C300 }] ∧
    t.re.re_busy = true ∧ t.re.re_t0 = 100 := by decide

/-- RE-22: selector 3 leaves the running cycle alone. -/
theorem test_reStart_badsel :
    let t := stepped (withCommand collecting 101 0x10030000000000000000)
    t.outs = [.respond .badSel 0] ∧ t.re = collecting.re := by decide

/-- R121's example: the same frame as TX.REQ_BAL. -/
theorem test_txReq :
    (after .txReq
      { State.reset with
        re := { ReState.reset with REQ_DEST := 0x0A, REQ_TAG := 8, REQ_LEN := 3, REQ_PAY := 0x02004F00000000 } }).outs =
      [.tx { tx_id := 0x8000080A, tx_len := 3, tx_data := 0x02004F0000000000 }] := by decide

/-- S9. -/
theorem test_txReqRt :
    (after .txReqRt State.reset).outs =
      [.tx { tx_id := 0x8000080A, tx_len := 7, tx_data := 0x020032000081C300 }] := by decide

/-- RE-2. -/
theorem test_txReqBal :
    (after .txReqBal State.reset).outs =
      [.tx { tx_id := 0x8000080A, tx_len := 3, tx_data := 0x02004F0000000000 }] := by decide

/-- RE-17: at 104 ms it polls. -/
theorem test_rePoll_inside :
    let t := stepped (withPoll collecting 104 none)
    t.re.re_polls = 1 ∧ t.re.re_busy = true ∧ t.outs = [.rxPoll] := by decide

/-- RE-17: at 105 ms it ends without polling, and the fragment stays in the transport. -/
theorem test_rePoll_window :
    let a := some { id := 0x80000502, length := 2, data := #v[0, 1, 0, 0, 0, 0, 0, 0] }
    let t := stepped (withPoll collecting 105 a)
    t.re.re_busy = false ∧ t.re.buf_valid = false ∧ t.outs = [] ∧ t.rxAnswers = [RxPort.ofFrame a] := by decide

theorem test_rxNone : after .rxNone collecting = collecting := by decide

/-- RE-4: straddle. -/
theorem test_rxFill_straddle :
    let t := (after (.rxFill 47 [1, 2, 3, 4, 5, 6, 7]) collecting).re
    t.buf = [(47, 1), (48, 2), (49, 3)] ∧ t.filled_len = 3 ∧ t.filled[0] = false := by decide

/-- RE-3: an overlap overwrites and does not count twice. -/
theorem test_rxFill_overlap :
    let t := (after (.rxFill 8 [0xAA, 0xBB, 0xCC]) (after (.rxFill 7 [0x11, 0x22, 0x33]) collecting)).re
    t.buf = [(7, 0x11), (8, 0xAA), (9, 0xBB), (10, 0xCC)] ∧ t.filled_len = 4 := by decide

/-- RE-10. -/
theorem test_rxHdr :
    let t := stepped (withPoll collecting 100
      (some { id := 0x80000702, length := 4, data := #v[2, 1, 0, 0x12, 0, 0, 0, 0] }))
    t.re.exp_len = 18 ∧ t.re.hdr_seen = true ∧ t.re.hdr_b0 = 2 ∧ t.re.hdr_b1 = 1 := by decide

/-- RE-15: another node's identifier costs a poll and nothing else. -/
theorem test_rxIgn :
    let t := stepped (withPoll collecting 100
      (some { id := 0x80000703, length := 6, data := #v[2, 1, 0, 0x12, 0, 0, 0, 0] }))
    t.re = { collecting.re with re_polls := 1 } := by decide

/-- The RE.END outcome table: 18 of 18. -/
theorem test_reEnd_valid :
    let t := (after .reEnd { collecting with re := exampleEngine }).re
    t.buf_valid = true ∧ t.buf_len = 18 ∧ t.re_busy = false := by decide

/-- The RE.END outcome table: 44 against 300, whose low byte is 44. -/
theorem test_reEnd_whole_length :
    let t := (after .reEnd
      { collecting with re := { collecting.re with hdr_seen := true, filled_len := 44, exp_len := 300 } }).re
    t.buf_valid = false ∧ t.buf_len = 0 := by decide

/-- RE-24: the last byte. -/
theorem test_reRd_last : (after (.reRd 17) exampleBuffer).outs = [.respond .ok 0xAA] := by decide

/-- RE-24: one past the last byte. -/
theorem test_reRd_range : (after (.reRd 18) exampleBuffer).outs = [.respond .range 0] := by decide

/-! ### The telemetry decoder -/

/-- TD-1. -/
theorem test_tdDecode :
    let t := stepped (withCommand exampleBuffer 104 0x20320000000000000000)
    t.td.snap_duty = 800 ∧ t.td.snap_erpm = 0 ∧ t.td.snap_volt = 500 ∧ t.td.snap_rt_valid = true ∧
      t.outs = [.respond .ok 0] := by decide

/-- P1 step 12: the wrong tag. -/
theorem test_tdDecode_wrong_tag :
    (after (.tdDecode 0x4F) exampleBuffer).outs = [.respond .decode 0] ∧
      (after (.tdDecode 0x4F) exampleBuffer).td = exampleBuffer.td := by decide

/-- TD-2: negative readings. -/
theorem test_msgRt :
    let t := (after .msgRt { State.reset with re := ReState.reset.fill 9 [0xFC, 0xE0, 0xFF, 0xFF, 0xFC, 0x18, 0x01, 0xA4] }).td
    s16 t.snap_duty = -800 ∧ s32 t.snap_erpm = -1000 ∧ s16 t.snap_volt = 420 := by decide

/-- TD-12. -/
theorem test_msgBal :
    let t := (after .msgBal
      { State.reset with
        re := (ReState.reset.fill 25 [0, 3]).fill 29 [0x00, 0x07, 0xA1, 0x20, 0xFF, 0xF0, 0xBD, 0xC0] }).td
    t.snap_bal_status = 3 ∧ s32 t.snap_sens_a = 500000 ∧ s32 t.snap_sens_b = -1000000 ∧
      t.snap_rt_valid = false := by decide

/-- TD-13. -/
theorem test_tdBcast :
    let t := (after (.tdBcast 8 0x00C80032FF9C03E8) State.reset).td
    t.bc_ch0 = 200 ∧ t.bc_ch1 = 50 ∧ s16 t.bc_ch2 = -100 ∧ t.bc_aux = 1000 ∧ t.bc_presence = true := by
  decide

/-- TD-14: equal does not exceed. -/
theorem test_tdBcast_equal :
    (after (.tdBcast 8 0x0096009600000000) State.reset).td.bc_presence = false := by decide

/-! ### The alert scheduler -/

/-- AS-2: the chime. -/
theorem test_asInit :
    let t := stepped (withCommand
      { State.reset with sch := { AsState.reset with CFG_CHIME_EN := true } } 5 0x30000000000000000000)
    t.outs = [.respond .ok 0, .toneEnqueue .startupChime] ∧ t.sch.prio = .startupChime ∧
      t.sch.tone_last = 5 := by decide

/-- AS-14: both eligible; the duty-cycle alert fires alone. -/
theorem test_asTick_both :
    let t := after .asTick alerting
    t.outs = [.respond .ok 5, .toneEnqueue .singleBeep, .toneTick] ∧ t.sch.prio = .dutyCycle ∧
      t.sch.duty_last = 1000 ∧ t.sch.lowv_fired = false := by decide

/-- AS-5: the magnitude of -32768 is 32768. -/
theorem test_asTick_magnitude :
    (after .asTick
      { alerting with
        td := { alerting.td with snap_duty := 0x8000 }
        sch := { alerting.sch with CFG_DUTY_THR := 32767, CFG_VOLT_THR := 0 } }).outs.head? =
      some (.respond .ok 5) := by decide

/-! ### Host commands and registers -/

/-- H-1. -/
theorem test_nop : (after .nop State.reset).outs = [.respond .ok 0] := by decide

/-- H-5 and H-6: truncation to 16 and 3 bits. -/
theorem test_csrWr :
    (after (.csrWr 0x00 0x12345) State.reset).sch.CFG_DUTY_THR = 0x2345 ∧
      (after (.csrWr 0x0A 9) State.reset).re.REQ_LEN = 1 := by decide

/-- H-4. -/
theorem test_csrWr_read_only : (after (.csrWr 0x10 1) State.reset).outs = [.respond .readOnly 0] := by decide

/-- P1 step 8: `RE_STATUS`. -/
theorem test_csrRd_status :
    (after (.csrRd 0x10) exampleBuffer).outs = [.respond .ok 0x12010200121206] := by decide

/-- H-10: not sign-extended. -/
theorem test_csrRd_pattern :
    (after (.csrRd 0x20) { State.reset with td := { TdState.reset with snap_duty := 0xFCE0 } }).outs =
      [.respond .ok 0xFCE0] := by decide

/-- R250: reset wins over a command. -/
theorem test_reset :
    let t := stepped
      { exampleBuffer with
        script := [{ rst := true, now_ms := 7, cmd := some 0x10010000000000000000, tone_busy := false }] }
    t.re = ReState.reset ∧ t.outs = [] := by decide

/-! ### Witnesses: states and operands that meet the hypotheses of each obligation, clause by clause -/

theorem p0_ok : p0.ok := by constructor <;> decide

/-- A state that meets the invariant of an uncomplicated engine: the parameters P0 and a scheduler as reset. -/
theorem inv_of_engine (re : ReState) (h1 : re.buf.wf = true)
    (h2 : ∀ (i : Nat) (h : i < BUF_CAP), re.filled[i] = false → re.buf.read i = 0)
    (h3 : re.filled_len.toNat = re.filled.count true ∧ re.filled_len.toNat ≤ BUF_CAP)
    (h4 : re.re_busy = true → re.buf_valid = false)
    (h5 : re.buf_valid = true →
      re.hdr_seen = true ∧ re.buf_len = re.filled_len ∧ re.buf_len.toNat = re.exp_len.toNat ∧
        re.exp_len.toNat ≤ BUF_CAP)
    (h6 : re.buf_valid = false → re.buf_len = 0)
    (h7 : re.hdr_seen = false → re.exp_len = 0 ∧ re.hdr_b0 = 0 ∧ re.hdr_b1 = 0)
    (h8 : re.re_polls ≤ 64) : ({ State.reset with re := re } : State).Inv where
  params_ok := p0_ok
  buf_wf := h1
  unfilled_zero := h2
  filled_count := h3.1
  filled_le := h3.2
  busy_invalid := h4
  valid_header := fun h => (h5 h).1
  valid_len := fun h => (h5 h).2.1
  valid_exp := fun h => (h5 h).2.2.1
  valid_exp_le := fun h => (h5 h).2.2.2
  invalid_len := h6
  no_header := h7
  polls_le := h8
  uninit := fun _ => ⟨rfl, rfl, rfl⟩

/-- The invariant does not look at the inputs to come. -/
theorem inv_with_inputs (s : State) (h : s.Inv) (script : List Ports) (answers : List RxPort) :
    ({ s with script := script, rxAnswers := answers } : State).Inv :=
  ⟨h.1, h.2, h.3, h.4, h.5, h.6, h.7, h.8, h.9, h.10, h.11, h.12, h.13, h.14⟩

theorem exampleBuffer_inv : exampleBuffer.Inv := by apply inv_of_engine <;> decide

theorem holeBuffer_inv : holeBuffer.Inv := by apply inv_of_engine <;> decide

/-- A collection whose header declared 51 bytes. -/
def longHeader : State :=
  { State.reset with re := { ReState.reset with re_busy := true }.header 0x02 0x01 51 }

theorem longHeader_inv : longHeader.Inv := by apply inv_of_engine <;> decide

/-- A collection at its poll bound. -/
def pollBound : State := { State.reset with re := { ReState.reset with re_busy := true, re_polls := 64 } }

/-- A fresh collection over P0, at 0 ms. -/
def freshCycle : State := { State.reset with re := { ReState.reset with re_busy := true } }

theorem freshCycle_inv : freshCycle.Inv := by apply inv_of_engine <;> decide

/-- A fill frame under P0. -/
def fillFrame (o : Byte) (payload : List Byte) : Frame := frameOf 0x80000502 (o :: payload)

/-- A header frame under P0 that declares a length. -/
def headerFrame (n : Byte) : Frame := frameOf 0x80000702 [2, 1, 0, n, 0, 0]

theorem witness_ReStartBeginsCycle :
    2 < (3 : Byte).toNat ∧ 2 < (255 : Byte).toNat ∧ (0 : Byte).toNat ≤ 2 ∧ (1 : Byte).toNat = 1 ∧
      (2 : Byte).toNat ≤ 2 := by decide

theorem witness_PollTakesOneAnswerUnlessBounded :
    State.reset.re.re_busy = false ∧
    (pollBound.re.re_busy = true ∧ pollBound.cfg.MAX_POLLS ≤ pollBound.re.re_polls) ∧
    (collecting.re.re_busy = true ∧ collecting.cfg.WINDOW_MS ≤ elapsed 105 collecting.re.re_t0) ∧
    (collecting.re.re_polls < collecting.cfg.MAX_POLLS ∧
      elapsed 104 collecting.re.re_t0 < collecting.cfg.WINDOW_MS) ∧
    (withPoll collecting 104 none).rxAnswers = RxPort.ofFrame none :: [] := by decide

/-- The two outcomes of a poll inside its bounds: it completes a message, or it does not. -/
theorem witness_PollTakesOneAnswerUnlessBounded_outcomes :
    complete (ReState.reset.accept (classify p0 (some (headerFrame 0)))) = true ∧
      complete (ReState.reset.accept (classify p0 (some (headerFrame 1)))) = false := by decide

theorem witness_ReceiveClassification :
    p0.ok ∧
    ((fillFrame 0 []).id.toNat = 0x80000000 + p0.TAG_FILL.toNat * 256 + p0.OWN_ID.toNat ∧
      (fillFrame 0 []).length.toNat = 1 ∧ (fillFrame 0 [1, 2, 3, 4, 5, 6, 7]).length.toNat = 8) ∧
    ((headerFrame 0).id.toNat = 0x80000000 + p0.TAG_HDR.toNat * 256 + p0.OWN_ID.toNat ∧
      (frameOf 0x80000702 [2, 1, 0, 18]).length.toNat = 4) ∧
    (0x80000703 : Word).toNat ≠ 0x80000000 + p0.TAG_HDR.toNat * 256 + p0.OWN_ID.toNat :=
  ⟨p0_ok, by decide⟩

theorem witness_FillStoresOnlyInBoundsBytes :
    (47 : Byte).toNat + 2 < 50 ∧ 50 ≤ (47 : Byte).toNat + 3 ∧ 50 ≤ (255 : Byte).toNat ∧
      (0 : Nat) < (1 : Byte).toNat := by decide

theorem witness_FilledLenCountsDistinctIndices :
    collecting.re.filled_len.toNat = collecting.re.filled.count true ∧
      exampleBuffer.re.filled_len.toNat = exampleBuffer.re.filled.count true := by decide

theorem witness_RepeatedFragmentChangesNothing :
    collecting.re.buf.wf = true ∧ exampleBuffer.re.buf.wf = true := by decide

theorem witness_DisjointFragmentsCommute :
    collecting.re.buf.wf = true ∧
      ((0 : Byte).toNat + [0x11, 0x22].length ≤ (2 : Byte).toNat ∨
        (2 : Byte).toNat + [0x33].length ≤ (0 : Byte).toNat) ∧
      ((45 : Byte).toNat + [0x33].length ≤ (2 : Byte).toNat ∨
        (2 : Byte).toNat + [0x11, 0x22].length ≤ (45 : Byte).toNat) := by decide

theorem witness_EndPublishesOnlyExactLength :
    (exampleEngine.hdr_seen = true ∧ exampleEngine.filled_len.toNat = exampleEngine.exp_len.toNat) ∧
      ¬(collecting.re.hdr_seen = true ∧ collecting.re.filled_len.toNat = collecting.re.exp_len.toNat) ∧
      ¬(longHeader.re.hdr_seen = true ∧ longHeader.re.filled_len.toNat = longHeader.re.exp_len.toNat) := by
  decide

theorem witness_DeclaredLengthAboveCapacityNeverValidates :
    longHeader.Inv ∧ 50 < longHeader.re.exp_len.toNat := ⟨longHeader_inv, by decide⟩

theorem witness_ReadByteOfValidatedBuffer :
    collecting.re.re_busy = true ∧ State.reset.re.buf_valid = false ∧
    (exampleBuffer.re.re_busy = false ∧ exampleBuffer.re.buf_valid = true ∧
      exampleBuffer.re.buf_len.toNat ≤ (18 : Byte).toNat ∧ (17 : Byte).toNat < exampleBuffer.re.buf_len.toNat) := by
  decide

theorem witness_HoleReadsZero :
    holeBuffer.Inv ∧ holeBuffer.re.re_busy = false ∧ holeBuffer.re.buf_valid = true ∧
      (3 : Byte).toNat < holeBuffer.re.buf_len.toNat ∧ holeBuffer.re.filled[(3 : Byte).toNat] = false :=
  ⟨holeBuffer_inv, by decide⟩

theorem witness_DiscardedBufferIsUnobservable :
    (exampleEngine.re_busy = true ∧ exampleEngine.buf ≠ []) ∧ State.reset.re.buf_valid = false ∧
      ((∃ x, Instr.reRd 0 = .reRd x) ∧ (∃ x, Instr.tdDecode 0 = .tdDecode x) ∧ ∃ x, Instr.csrRd 0 = .csrRd x) :=
  ⟨by decide, rfl, ⟨0, rfl⟩, ⟨0, rfl⟩, 0, rfl⟩

theorem witness_DecodeAgainstExpectedTag :
    p0.ok ∧ collecting.re.re_busy = true ∧ State.reset.re.buf_valid = false ∧
    (exampleBuffer.re.re_busy = false ∧ exampleBuffer.re.buf_valid = true ∧
      ¬(exampleBuffer.re.buf_len.toNat = 18 ∧ exampleBuffer.re.buf.read 0 = 0x4F ∧ (0x4F : Byte).toNat = 0x32) ∧
      ¬(exampleBuffer.re.buf_len.toNat = 37 ∧ exampleBuffer.re.buf.read 0 = 0x4F ∧ (0x4F : Byte) = p0.TAG_BAL)) ∧
    (exampleBuffer.re.buf_len.toNat = 18 ∧ exampleBuffer.re.buf.read 0 = 0x32) ∧
    (balanceBuffer.re.re_busy = false ∧ balanceBuffer.re.buf_valid = true ∧
      balanceBuffer.re.buf_len.toNat = 37 ∧ balanceBuffer.re.buf.read 0 = 0x4F ∧
      (0x4F : Byte) = balanceBuffer.cfg.TAG_BAL) := ⟨p0_ok, by decide⟩

theorem witness_WorkedRealtimeExample :
    exampleBuffer.re.re_busy = false ∧ exampleBuffer.re.buf_valid = true ∧
      exampleBuffer.re.buf_len.toNat = 18 ∧ exampleBuffer.re.buf.read 0 = 0x32 ∧
      field16 exampleBuffer.re.buf 9 = 0x0320 ∧ field32 exampleBuffer.re.buf 11 = 0 ∧
      field16 exampleBuffer.re.buf 15 = 0x01F4 := by decide

theorem witness_BroadcastDecode :
    (State.resetWith { p0 with HAS_BCAST := false }).cfg.HAS_BCAST = false ∧
      State.reset.cfg.HAS_BCAST = true ∧ (7 : Byte).toNat ≠ 8 ∧ (9 : Byte).toNat ≠ 8 ∧ (8 : Byte).toNat = 8 := by
  decide

theorem witness_SchedulerInitialisation :
    alerting.sch.sch_init = true ∧ State.reset.sch.sch_init = false := by decide

theorem witness_TickRunsFourSteps :
    State.reset.sch.sch_init = false ∧ alerting.sch.sch_init = true := by decide

theorem witness_PriorityMeansBusyOrFired :
    alerting.sch.sch_init = true ∧
      ∃ t, exec .asTick alerting = .next t ∧ t.sch.prio ≠ .none := ⟨by decide, _, rfl, by decide⟩

theorem witness_DutyAlertFiresOncePerCooldown :
    (alerting.sch.sch_init = true ∧ alerting.td.snap_rt_valid = true ∧ alerting.sch.CFG_DUTY_THR ≠ 0 ∧
      (alerting.sch.CFG_DUTY_THR.toNat : Int) < |s16 alerting.td.snap_duty|) ∧
    alerting.sch.duty_fired = false ∧
    (alerting.sch.CFG_DUTY_CD.toNat ≤ elapsed 2000 1000 ∧ elapsed 1999 1000 < alerting.sch.CFG_DUTY_CD.toNat) := by
  decide

theorem witness_DutyAlertBlocksLowVoltage :
    let s := { alerting with
      td := { alerting.td with snap_duty := 0 }, sch := { alerting.sch with prio := .dutyCycle } }
    let idle := { s with port := { s.port with tone_busy := false } }
    s.sch.sch_init = true ∧ s.sch.prio = .dutyCycle ∧ s.port.tone_busy = true ∧
      idle.port.tone_busy = false ∧ voltBelow idle.td idle.sch = true ∧
      cooldownOk idle.sch.lowv_fired idle.sch.lowv_last idle.sch.CFG_LOWV_CD idle.port.now_ms = true ∧
      (after .asTick idle).outs.count (.toneEnqueue .singleBeep) =
        idle.outs.count (.toneEnqueue .singleBeep) := by decide

/-- The step that queues the chime, and a step after it with no reset. -/
theorem witness_ChimeQueuedOncePerLifetime :
    let s := withCommand { State.reset with sch := { AsState.reset with CFG_CHIME_EN := true } } 5
      0x30000000000000000000
    (∃ t, step s = .next t ∧ t.outs.count (.toneEnqueue .startupChime) = 1) ∧ s.sch.sch_init = false ∧
      alerting.sch.sch_init = true := ⟨⟨_, rfl, by decide⟩, by decide⟩

theorem witness_CsrReadAnswersValue :
    State.reset.re.re_polls < 2 ^ 32 ∧ ((0x00 : Byte).toNat, 0) ∈ csrTable State.reset ∧
      ((0x33 : Byte).toNat, 0) ∈ csrTable State.reset ∧ ((0x05 : Byte).toNat, 150) ∈ csrTable State.reset ∧
      ((0x05 : Byte).toNat ∈ bcastNumbers → State.reset.cfg.HAS_BCAST = true) := by decide

theorem witness_UnimplementedCsrRefused :
    ¬Implemented State.reset (0x06 : Byte).toNat ∧ ¬Implemented State.reset (0xFF : Byte).toNat ∧
      ¬Implemented (State.resetWith { p0 with HAS_BCAST := false }) (0x28 : Byte).toNat :=
  ⟨fun h => absurd h.1 (by decide), fun h => absurd h.1 (by decide), fun h => absurd (h.2 (by decide)) (by decide)⟩

theorem witness_CsrWriteTruncates :
    (Implemented State.reset (0x10 : Byte).toNat ∧ ∀ w, ((0x10 : Byte).toNat, w) ∉ rwTable) ∧
      Implemented State.reset (0x0A : Byte).toNat ∧ ((0x0A : Byte).toNat, 3) ∈ rwTable :=
  ⟨⟨⟨by decide, by decide⟩, fun w h => by simp [rwTable] at h⟩, ⟨by decide, by decide⟩, by decide⟩

theorem witness_EveryCommandAnswersOnce :
    hostCommand .asTick = true ∧ hostCommand .rePoll = false := by decide

theorem witness_FailingCommandHasNoEffect :
    hostCommand (.reRd 0) = true ∧ ∃ t, exec (.reRd 0) State.reset = .next t ∧
      t.outs.head? = some (.respond .noData 0) ∧ RspCode.noData ≠ .ok :=
  ⟨rfl, _, rfl, by decide, by decide⟩

theorem witness_OnlyNamedOperationsWrite :
    (∃ t, exec .asTick alerting = .next t ∧ t.sch ≠ alerting.sch) ∧
    (∃ t, exec .msgRt exampleBuffer = .next t ∧ t.td ≠ exampleBuffer.td) ∧
    (∃ t, exec (.reStart 1) State.reset = .next t ∧ t.re ≠ State.reset.re) ∧
    (∃ t, exec .rePoll (withPoll collecting 100 none) = .next t ∧
      t.rxAnswers ≠ (withPoll collecting 100 none).rxAnswers) :=
  ⟨⟨_, rfl, by decide⟩, ⟨_, rfl, by decide⟩, ⟨_, rfl, by decide⟩, ⟨_, rfl, by decide⟩⟩

theorem witness_UnitsAreDecoupled :
    (Instr.asTick = .asInit ∨ Instr.asTick = .asTick) ∧
      (Instr.reEnd = .rePoll ∨ Instr.reEnd = .reEnd ∨ (∃ x, Instr.reEnd = .reStart x) ∨
        ∃ x, Instr.reEnd = .reRd x) := ⟨.inr rfl, .inr (.inl rfl)⟩

theorem witness_ValidBitsClearedOnlyByReset :
    let s := withCommand
      { exampleBuffer with
        td := { TdState.reset with snap_rt_valid := true, snap_bal_valid := true, bc_valid := true } } 5
      0x204F0000000000000000
    (∃ t, step s = .next t) ∧ s.sample.port.rst = false ∧ s.td.snap_rt_valid = true ∧
      s.td.snap_bal_valid = true ∧ s.td.bc_valid = true := ⟨⟨_, rfl⟩, by decide⟩

theorem witness_ResetWinsAndEmitsNothing :
    let p : Ports := { rst := true, now_ms := 7, cmd := some 0x10010000000000000000, tone_busy := false }
    ({ exampleBuffer with script := [p] } : State).script = p :: [] ∧ p.rst = true := by decide

theorem witness_StepRunsDecodedCommand :
    let s := withCommand collecting 100 0x31000000000000000000
    s.script = sampleAt 100 (some 0x31000000000000000000) :: [] ∧
      (sampleAt 100 (some 0x31000000000000000000)).rst = false ∧
      (sampleAt 100 (some 0x31000000000000000000)).cmd = some 0x31000000000000000000 ∧
      decode s.cfg (.command 0x31000000000000000000) = .ok .asTick := by decide

theorem witness_UndefinedOpAnswersBadOp :
    let s := withCommand State.reset 100 0x11000000000000000000
    s.script = sampleAt 100 (some 0x11000000000000000000) :: [] ∧
      (0x11000000000000000000 : BitVec 80).toNat / 2 ^ 72 ∉
        [0x00, 0x01, 0x02, 0x10, 0x12, 0x20, 0x21, 0x30, 0x31] ∧
      (0xFFFFFFFFFFFFFFFFFFFF : BitVec 80).toNat / 2 ^ 72 ∉
        [0x00, 0x01, 0x02, 0x10, 0x12, 0x20, 0x21, 0x30, 0x31] := by decide

theorem witness_StepWithoutCommand :
    let s := withPoll collecting 104 none
    s.script = sampleAt 104 none :: [] ∧ (sampleAt 104 none).rst = false ∧ (sampleAt 104 none).cmd = none ∧
      s.re.re_busy = true ∧ (withPoll State.reset 104 none).re.re_busy = false := by decide

theorem witness_InvariantsKeptByEveryStep :
    ((withPoll exampleBuffer 0 none).Inv ∧ ∃ t, step (withPoll exampleBuffer 0 none) = .next t) ∧
      (withPoll freshCycle 0 (some (headerFrame 2))).Inv ∧
        ∃ t, step (withPoll freshCycle 0 (some (headerFrame 2))) = .next t :=
  ⟨⟨inv_with_inputs _ exampleBuffer_inv _ _, _, rfl⟩, inv_with_inputs _ freshCycle_inv _ _, _, rfl⟩

theorem witness_InvariantsHoldAtReset : p0.ok := p0_ok

/-- A collection over P0 with 65 sequencer turns scheduled and no poll made. -/
theorem witness_CollectionEndsWithinPollBudget :
    let s := { freshCycle with script := List.replicate 65 (sampleAt 0 none) }
    s.re.re_busy = true ∧ s.cfg.MAX_POLLS - s.re.re_polls + 1 ≤ s.script.length ∧
      ∀ p ∈ s.script, p.sequencerTurn :=
  ⟨rfl, by decide, fun p hp => by rw [List.eq_of_mem_replicate hp]; exact ⟨rfl, rfl⟩⟩

/-- The receive ports byte by byte: `07 11 22 33` as `rx_data`, byte 0 in bits 63:56 (R53, R62). -/
theorem test_rx_port :
    (RxPort.mk true 0x80000502 4 0x0711223344556677).frame =
        some { id := 0x80000502, length := 4, data := #v[7, 0x11, 0x22, 0x33, 0x44, 0x55, 0x66, 0x77] } ∧
      (RxPort.mk false 0x80000502 4 0x0711223344556677).frame = none := by decide

/-- Samples in which the host ticks the scheduler between the sequencer's turns. -/
def alternating (k : Nat) : Ports := sampleAt 0 (if k % 2 = 0 then some 0x31000000000000000000 else none)

/-- The states those samples lead a fresh collection through. -/
def alternatingRun : Nat → State
  | 0 => freshCycle
  | k + 1 => stepped { alternatingRun k with script := alternating k :: (alternatingRun k).script }

/-- The samples' operations, AS.TICK and the sequencer's, always answer a next state, the one `stepped` computes. -/
theorem step_alternating (s : State) (k : Nat) (rest : List Ports) :
    step { s with script := alternating k :: rest } =
      .next (stepped { s with script := alternating k :: rest }) := by
  suffices h : ∃ t, step { s with script := alternating k :: rest } = .next t by
    obtain ⟨t, h⟩ := h
    rw [stepped, h]
  rcases step_cases { s with script := alternating k :: rest } with
    ⟨_, h⟩ | ⟨w, i, _, hw, hd, h⟩ | ⟨_, _, _, _, _, h⟩ | ⟨_, _, _, h⟩ | ⟨_, _, _, h⟩
  · exact ⟨_, h⟩
  · have hi : i = .asTick := by
      have hw' : alternating k = sampleAt 0 (some w) := by
        simpa [State.sample, alternating, sampleAt] using hw
      have : w = 0x31000000000000000000 := by
        simp only [alternating, sampleAt, Ports.mk.injEq] at hw'
        split at hw' <;> simp_all
      subst this
      exact (Except.ok.inj hd).symm
    subst hi
    rcases execAsTick_cases ({ s with script := alternating k :: rest } : State).sample with
      ⟨_, h'⟩ | ⟨_, h'⟩ <;> exact ⟨_, h.trans h'⟩
  · exact ⟨_, h⟩
  · rcases execRePoll_cases ({ s with script := alternating k :: rest } : State).sample with
      ⟨_, h'⟩ | ⟨_, _, h'⟩ | ⟨_, _, h'⟩ <;> exact ⟨_, h.trans h'⟩
  · exact ⟨_, h⟩

theorem witness_CycleEndsUnderWeakFairness :
    Execution alternating alternatingRun ∧ SequencerFair alternating alternatingRun ∧
      (alternatingRun 0).re.re_busy = true :=
  ⟨fun _ => step_alternating _ _ _, fun k _ => ⟨2 * k + 1, by omega, rfl, by simp [alternating, sampleAt]⟩, rfl⟩

theorem witness_TransportPortsCarryFrames :
    (RxPort.ofFrame none).rx_valid = false ∧ (RxPort.mk true 0x80000502 9 0).rx_valid = true ∧
      (frameOf 0x8000080A [1, 2, 3, 4, 5, 6, 7]).length.toNat < 16 := by decide

/-- A header that declares 2, the fragments of both bytes in reverse order, and an empty poll between them. -/
def delivery : List (Option Frame) :=
  [some (headerFrame 2), some (fillFrame 1 [0xBB]), none, some (fillFrame 0 [0xAA])]

/-- The two bytes delivered. -/
def deliveredByte (i : Nat) : Byte := if i = 0 then 0xAA else 0xBB

theorem classify_delivery :
    classify p0 (some (headerFrame 2)) = .header 2 1 2 [0, 0] ∧
      classify p0 (some (fillFrame 1 [0xBB])) = .fill 1 [0xBB] ∧ classify p0 none = .noFrame ∧
      classify p0 (some (fillFrame 0 [0xAA])) = .fill 0 [0xAA] := by decide

theorem delivery_delivers : Delivers p0 delivery 2 deliveredByte := by
  obtain ⟨h1, h2, h3, h4⟩ := classify_delivery
  refine ⟨?_, ?_, ?_, ⟨_, by simp [delivery], _, _, _, _, h1⟩⟩
  · intro a ha o payload hc
    simp only [delivery, List.mem_cons, List.not_mem_nil, or_false] at ha
    rcases ha with rfl | rfl | rfl | rfl
    · rw [h1] at hc
      cases hc
    · rw [h2] at hc
      cases hc
      decide
    · rw [h3] at hc
      cases hc
    · rw [h4] at hc
      cases hc
      decide
  · intro i hi
    have : i = 0 ∨ i = 1 := by omega
    rcases this with rfl | rfl
    · exact ⟨_, by simp [delivery], _, _, h4, by decide, by decide⟩
    · exact ⟨_, by simp [delivery], _, _, h2, by decide, by decide⟩
  · intro a ha b0 b1 len rest hc
    simp only [delivery, List.mem_cons, List.not_mem_nil, or_false] at ha
    rcases ha with rfl | rfl | rfl | rfl
    · rw [h1] at hc
      cases hc
      rfl
    · rw [h2] at hc
      cases hc
    · rw [h3] at hc
      cases hc
    · rw [h4] at hc
      cases hc

theorem witness_CoveringFragmentsValidateInAnyOrder :
    let s := { freshCycle with script := List.replicate 4 (sampleAt 4 none), rxAnswers := delivery.map RxPort.ofFrame }
    s.Inv ∧ s.re.re_busy = true ∧ s.re.filled_len = 0 ∧ s.re.hdr_seen = false ∧ s.re.re_polls = 0 ∧
      Delivers s.cfg delivery 2 deliveredByte ∧ s.rxAnswers.map RxPort.frame = delivery ++ [] ∧
      delivery.length ≤ s.cfg.MAX_POLLS ∧ delivery.length ≤ s.script.length ∧
      ∀ p ∈ s.script, p.sequencerTurn ∧ elapsed p.now_ms s.re.re_t0 < s.cfg.WINDOW_MS :=
  ⟨inv_with_inputs _ freshCycle_inv _ _, rfl, rfl, rfl, rfl, delivery_delivers, by simp [delivery], by decide, by decide,
    fun p hp => by rw [List.eq_of_mem_replicate hp]; exact ⟨⟨rfl, rfl⟩, by decide⟩⟩

theorem witness_DecodeOfEncode :
    p0.ok ∧ WellFormed p0 (.rxFill 255 [1, 2, 3, 4, 5, 6, 7]) = true ∧
      WellFormed p0 (.rxHdr 255 255 65535 [1, 2, 3, 4]) = true ∧
      WellFormed p0 (.rxIgn { id := 0x80000502, length := 0, data := #v[1, 2, 3, 4, 5, 6, 7, 8] }) = true ∧
      WellFormed p0 (.csrWr 255 0xFFFFFFFFFFFFFFFF) = true := ⟨p0_ok, by decide⟩

theorem witness_DecodedInstructionsAreWellFormed :
    decode p0 (.answer (some (fillFrame 0 [1, 2, 3, 4, 5, 6, 7]))) = .ok (.rxFill 0 [1, 2, 3, 4, 5, 6, 7]) := by
  decide

theorem witness_EncodeOfDecodedCommand :
    decode p0 (.command 0x10FF0000000000000001) = .ok (.reStart 255) := by decide

end Sys2Proof.Tests
end

/-! SUPPORT. The units are decoupled (R2): replacing the registers an operation's unit does not read before the operation
is the same as replacing them after it. -/

namespace Sys2Proof.Machine

/-- The state with another reassembly engine. -/
def State.withRe (s : State) (re : ReState) : State := { s with re := re }

/-- The state with another telemetry snapshot and another scheduler. -/
def State.withTdSch (s : State) (td : TdState) (sch : AsState) : State := { s with td := td, sch := sch }

/-- The instruction completes, and commutes with a replacement of registers: what it does to the rest of the state does
not depend on them. -/
def CommutesWith (i : Instr) (f : State → State) : Prop :=
  ∀ s : State, ∃ t, exec i s = .next t ∧ exec i (f s) = .next (f t)

/-! ### Which case of an arm a state selects -/

theorem exec_asInit_of_init (s : State) (h : s.sch.sch_init = true) :
    exec .asInit s = .next (s.fail .already) :=
  ((execAsInit_cases s).resolve_right (by simp [h])).2

theorem exec_asInit_of_uninit (s : State) (h : s.sch.sch_init = false) :
    exec .asInit s = .next ({ s.queueChime with sch := s.sch.initialised s.now }.respond .ok 0) :=
  ((execAsInit_cases s).resolve_left (by simp [h])).2

theorem exec_asTick_of_uninit (s : State) (h : s.sch.sch_init = false) :
    exec .asTick s = .next (s.fail .notInit) :=
  ((execAsTick_cases s).resolve_right (by simp [h])).2

theorem exec_asTick_of_init (s : State) (h : s.sch.sch_init = true) :
    exec .asTick s =
      .next (s.drivePulse.detectIdle.dutyStep.lowvStep.respond .ok
        (tickValue (pulseDue s)
          (tickPattern (dutyFires s.drivePulse.detectIdle)
            (lowvFires s.drivePulse.detectIdle.dutyStep)))) :=
  ((execAsTick_cases s).resolve_left (by simp [h])).2

theorem exec_rePoll_of_idle (s : State) (h : s.re.re_busy = false) : exec .rePoll s = .next s := by
  obtain ⟨-, e⟩ := (execRePoll_cases s).resolve_right (by simp [h])
  exact e

theorem exec_rePoll_of_bound (s : State) (hb : s.re.re_busy = true) (hr : boundReached s = true) :
    exec .rePoll s = .next { s with re := s.re.endCycle } := by
  obtain ⟨-, -, e⟩ :=
    ((execRePoll_cases s).resolve_left (by simp [hb])).resolve_right (by simp [hr])
  exact e

theorem exec_rePoll_of_turn (s : State) (hb : s.re.re_busy = true) (hr : boundReached s = false) :
    exec .rePoll s = .next s.iterate := by
  obtain ⟨-, -, e⟩ :=
    ((execRePoll_cases s).resolve_left (by simp [hb])).resolve_left (by simp [hr])
  exact e

theorem exec_reStart_of_badSelector (s : State) {sel : Byte} (h : requestOf sel = none) :
    exec (.reStart sel) s = .next (s.fail .badSel) := by
  simp [exec, execReStart, h]

theorem exec_reStart_of_request (s : State) {sel : Byte} {r : Request} (h : requestOf sel = some r) :
    exec (.reStart sel) s =
      .next ((s.clearCycle.send (descriptor s r)).setBusy.respond .ok 0) := by
  simp [exec, execReStart, h]

theorem exec_reRd_of_noData (s : State) (x : Byte) (h : noData s = true) :
    exec (.reRd x) s = .next (s.fail .noData) := by
  simp [exec, execReRd, h]

theorem exec_reRd_of_range (s : State) {x : Byte} (h : noData s = false)
    (hx : s.re.buf_len.toNat ≤ x.toNat) : exec (.reRd x) s = .next (s.fail .range) := by
  simp [exec, execReRd, h, hx]

theorem exec_reRd_of_byte (s : State) {x : Byte} (h : noData s = false)
    (hx : ¬s.re.buf_len.toNat ≤ x.toNat) :
    exec (.reRd x) s = .next (s.respond .ok ((s.re.buf.read x.toNat).setWidth 64)) := by
  simp [exec, execReRd, h, hx]

/-! ### The scheduler under another engine -/

theorem State.queueChime_withRe (s : State) (re : ReState) :
    (s.withRe re).queueChime = s.queueChime.withRe re := by
  rw [State.queueChime_eq, State.queueChime_eq]
  rfl

theorem State.drivePulse_withRe (s : State) (re : ReState) :
    (s.withRe re).drivePulse = s.drivePulse.withRe re := by
  rw [State.drivePulse_eq, State.drivePulse_eq]
  rfl

theorem State.detectIdle_withRe (s : State) (re : ReState) :
    (s.withRe re).detectIdle = s.detectIdle.withRe re := by
  rw [State.detectIdle_eq, State.detectIdle_eq]
  rfl

theorem State.dutyStep_withRe (s : State) (re : ReState) :
    (s.withRe re).dutyStep = s.dutyStep.withRe re := by
  rw [State.dutyStep_eq, State.dutyStep_eq]
  rfl

theorem State.lowvStep_withRe (s : State) (re : ReState) :
    (s.withRe re).lowvStep = s.lowvStep.withRe re := by
  rw [State.lowvStep_eq, State.lowvStep_eq]
  rfl

theorem asInit_commutesWith_withRe (re : ReState) : CommutesWith .asInit (·.withRe re) := by
  intro s
  cases h : s.sch.sch_init with
  | true => exact ⟨_, exec_asInit_of_init s h, exec_asInit_of_init _ h⟩
  | false =>
    refine ⟨_, exec_asInit_of_uninit s h, (exec_asInit_of_uninit (s.withRe re) h).trans ?_⟩
    rw [State.queueChime_withRe]
    rfl

theorem asTick_commutesWith_withRe (re : ReState) : CommutesWith .asTick (·.withRe re) := by
  intro s
  cases h : s.sch.sch_init with
  | false => exact ⟨_, exec_asTick_of_uninit s h, exec_asTick_of_uninit _ h⟩
  | true =>
    refine ⟨_, exec_asTick_of_init s h, (exec_asTick_of_init (s.withRe re) h).trans ?_⟩
    rw [State.drivePulse_withRe, State.detectIdle_withRe, State.dutyStep_withRe,
      State.lowvStep_withRe]
    rfl

/-! ### The engine under another snapshot and scheduler -/

theorem descriptor_withTdSch (s : State) (td : TdState) (sch : AsState) (r : Request) :
    descriptor (s.withTdSch td sch) r = descriptor s r := by
  cases r <;> rfl

theorem State.iterate_withTdSch (s : State) (td : TdState) (sch : AsState) :
    (s.withTdSch td sch).iterate = s.iterate.withTdSch td sch := by
  rw [State.iterate_eq, State.iterate_eq]
  rfl

theorem rePoll_commutesWith_withTdSch (td : TdState) (sch : AsState) :
    CommutesWith .rePoll (·.withTdSch td sch) := by
  intro s
  cases hb : s.re.re_busy with
  | false => exact ⟨_, exec_rePoll_of_idle s hb, exec_rePoll_of_idle _ hb⟩
  | true =>
    cases hr : boundReached s with
    | true => exact ⟨_, exec_rePoll_of_bound s hb hr, exec_rePoll_of_bound _ hb hr⟩
    | false =>
      refine ⟨_, exec_rePoll_of_turn s hb hr,
        (exec_rePoll_of_turn (s.withTdSch td sch) hb hr).trans ?_⟩
      rw [State.iterate_withTdSch]

theorem reEnd_commutesWith_withTdSch (td : TdState) (sch : AsState) :
    CommutesWith .reEnd (·.withTdSch td sch) :=
  fun _ => ⟨_, rfl, rfl⟩

theorem reStart_commutesWith_withTdSch (sel : Byte) (td : TdState) (sch : AsState) :
    CommutesWith (.reStart sel) (·.withTdSch td sch) := by
  intro s
  cases h : requestOf sel with
  | none => exact ⟨_, exec_reStart_of_badSelector s h, exec_reStart_of_badSelector _ h⟩
  | some r =>
    refine ⟨_, exec_reStart_of_request s h,
      (exec_reStart_of_request (s.withTdSch td sch) h).trans ?_⟩
    rw [descriptor_withTdSch]
    rfl

theorem reRd_commutesWith_withTdSch (x : Byte) (td : TdState) (sch : AsState) :
    CommutesWith (.reRd x) (·.withTdSch td sch) := by
  intro s
  cases h : noData s with
  | true => exact ⟨_, exec_reRd_of_noData s x h, exec_reRd_of_noData _ x h⟩
  | false =>
    by_cases hx : s.re.buf_len.toNat ≤ x.toNat
    · exact ⟨_, exec_reRd_of_range s h hx, exec_reRd_of_range _ h hx⟩
    · exact ⟨_, exec_reRd_of_byte s h hx, exec_reRd_of_byte _ h hx⟩

/-- Settles O40: it holds, operation by operation; each commutes with the replacement of the other units' registers. -/
theorem unitsAreDecoupled : Obligations.UnitsAreDecoupled := by
  unfold Obligations.UnitsAreDecoupled
  constructor
  · rintro s re i (rfl | rfl)
    · exact asInit_commutesWith_withRe re s
    · exact asTick_commutesWith_withRe re s
  · rintro s td sch i (rfl | rfl | ⟨sel, rfl⟩ | ⟨x, rfl⟩)
    · exact rePoll_commutesWith_withTdSch td sch s
    · exact reEnd_commutesWith_withTdSch td sch s
    · exact reStart_commutesWith_withTdSch sel td sch s
    · exact reRd_commutesWith_withTdSch x td sch s

end Sys2Proof.Machine

/-! SUPPORT. What each operation can write (R20 to R46): one frame per kind of operation. -/

namespace Sys2Proof.Machine

/-- The kinds of operation, by the registers they write. -/
inductive Writes where
  /-- No register: the operation only outputs. -/
  | nothing
  /-- The reassembly engine. -/
  | engine
  /-- The reassembly engine, by a poll of the transport. -/
  | poll
  /-- The telemetry snapshot. -/
  | snapshot
  /-- The alert scheduler. -/
  | scheduler
  /-- The configuration registers of all three groups. -/
  | config

/-- What an operation of a kind leaves as it was. -/
def Writes.Frame (s t : State) : Writes → Prop
  | .nothing => t = { s with outs := t.outs }
  | .engine => t = { s with re := t.re, outs := t.outs }
  | .poll => t = { s with re := t.re, rxAnswers := t.rxAnswers, outs := t.outs, free := t.free }
  | .snapshot => t = { s with td := t.td, outs := t.outs }
  | .scheduler => t = { s with sch := t.sch, outs := t.outs }
  | .config => t = { s with re := t.re, td := t.td, sch := t.sch, outs := t.outs }

/-- The kind of each operation. -/
def writesOf : Instr → Writes
  | .reStart _ => .engine
  | .txReq => .nothing
  | .txReqRt => .nothing
  | .txReqBal => .nothing
  | .rePoll => .poll
  | .rxNone => .nothing
  | .rxFill _ _ => .engine
  | .rxHdr _ _ _ _ => .engine
  | .rxIgn _ => .nothing
  | .reEnd => .engine
  | .reRd _ => .nothing
  | .tdDecode _ => .snapshot
  | .msgRt => .snapshot
  | .msgBal => .snapshot
  | .tdBcast _ _ => .snapshot
  | .asInit => .scheduler
  | .asTick => .scheduler
  | .nop => .nothing
  | .csrWr _ _ => .config
  | .csrRd _ => .nothing

/-! ### The frames of the arms that have cases -/

theorem execReStart_frame {sel : Byte} {s t : State} (h : execReStart sel s = .next t) :
    Writes.engine.Frame s t := by
  rcases execReStart_cases sel s with e | ⟨r, -, e⟩ <;> cases e.symm.trans h <;> rfl

theorem execRePoll_frame {s t : State} (h : execRePoll s = .next t) : Writes.poll.Frame s t := by
  rcases execRePoll_cases s with ⟨-, e⟩ | ⟨-, -, e⟩ | ⟨-, -, e⟩ <;> cases e.symm.trans h <;> rfl

theorem execReRd_frame {i : Byte} {s t : State} (h : execReRd i s = .next t) :
    Writes.nothing.Frame s t := by
  obtain ⟨c, v, e, -⟩ := execReRd_cases i s
  cases e.symm.trans h
  rfl

theorem execTdDecode_frame {tag : Byte} {s t : State} (h : execTdDecode tag s = .next t) :
    Writes.snapshot.Frame s t := by
  rcases execTdDecode_cases tag s with ⟨c, -, e⟩ | ⟨m, -, -, e⟩ <;> cases e.symm.trans h <;> rfl

theorem execTdBcast_frame {n : Byte} {d : Dword} {s t : State} (h : execTdBcast n d s = .next t) :
    Writes.snapshot.Frame s t := by
  rcases execTdBcast_cases n d s with ⟨c, -, e⟩ | ⟨-, -, e⟩ <;> cases e.symm.trans h <;> rfl

theorem execAsInit_frame {s t : State} (h : execAsInit s = .next t) :
    Writes.scheduler.Frame s t := by
  rcases execAsInit_cases s with ⟨-, e⟩ | ⟨-, e⟩ <;> cases e.symm.trans h
  · rfl
  · rw [State.queueChime_eq]
    rfl

theorem execAsTick_frame {s t : State} (h : execAsTick s = .next t) :
    Writes.scheduler.Frame s t := by
  rcases execAsTick_cases s with ⟨-, e⟩ | ⟨-, e⟩ <;> cases e.symm.trans h
  · rfl
  · rw [State.tick_eq s _ _ _ rfl rfl rfl]
    rfl

theorem execCsrRd_frame {n : Byte} {s t : State} (h : execCsrRd n s = .next t) :
    Writes.nothing.Frame s t := by
  rcases execCsrRd_cases n s with ⟨-, e⟩ | ⟨r, -, e⟩ <;> cases e.symm.trans h <;> rfl

theorem execCsrWr_frame {n : Byte} {v : Dword} {s t : State} (h : execCsrWr n v s = .next t) :
    Writes.config.Frame s t := by
  rcases execCsrWr_cases n v s with ⟨c, -, e⟩ | ⟨r, u, -, hu, e⟩ <;> cases e.symm.trans h
  · rfl
  · rw [csrStore_frame s v r u hu]
    rfl

/-- Every operation writes within the frame of its kind. -/
theorem exec_frame {i : Instr} {s t : State} (h : exec i s = .next t) : (writesOf i).Frame s t := by
  cases i with
  | reStart sel => exact execReStart_frame h
  | rePoll => exact execRePoll_frame h
  | reRd x => exact execReRd_frame h
  | tdDecode x => exact execTdDecode_frame h
  | tdBcast n d => exact execTdBcast_frame h
  | asInit => exact execAsInit_frame h
  | asTick => exact execAsTick_frame h
  | csrWr n v => exact execCsrWr_frame h
  | csrRd n => exact execCsrRd_frame h
  | txReq | txReqRt | txReqBal | rxNone | rxFill | rxHdr | rxIgn | reEnd | msgRt | msgBal | nop =>
    cases h
    rfl

/-! ### What a frame says of each part of the state -/

theorem Writes.Frame.inputs {w : Writes} {s t : State} (h : w.Frame s t) :
    t.cfg = s.cfg ∧ t.port = s.port ∧ t.script = s.script := by
  cases w <;> (rw [h]; exact ⟨rfl, rfl, rfl⟩)

theorem Writes.Frame.sch {w : Writes} {s t : State} (h : w.Frame s t) (ht : t.sch ≠ s.sch) :
    w = .scheduler ∨ w = .config := by
  cases w with
  | scheduler => exact .inl rfl
  | config => exact .inr rfl
  | nothing | engine | poll | snapshot => exact absurd (congrArg State.sch h) ht

theorem Writes.Frame.td {w : Writes} {s t : State} (h : w.Frame s t) (ht : t.td ≠ s.td) :
    w = .snapshot ∨ w = .config := by
  cases w with
  | snapshot => exact .inl rfl
  | config => exact .inr rfl
  | nothing | engine | poll | scheduler => exact absurd (congrArg State.td h) ht

theorem Writes.Frame.re {w : Writes} {s t : State} (h : w.Frame s t) (ht : t.re ≠ s.re) :
    (w = .engine ∨ w = .poll) ∨ w = .config := by
  cases w with
  | engine => exact .inl (.inl rfl)
  | poll => exact .inl (.inr rfl)
  | config => exact .inr rfl
  | nothing | snapshot | scheduler => exact absurd (congrArg State.re h) ht

theorem Writes.Frame.transport {w : Writes} {s t : State} (h : w.Frame s t)
    (ht : t.rxAnswers ≠ s.rxAnswers ∨ t.free ≠ s.free) : w = .poll := by
  cases w with
  | poll => rfl
  | nothing | engine | snapshot | scheduler | config =>
    rcases ht with ht | ht
    · exact absurd (congrArg State.rxAnswers h) ht
    · exact absurd (congrArg State.free h) ht

/-! ### The operations of each kind -/

theorem writes_eq_scheduler_iff (i : Instr) : writesOf i = .scheduler ↔ i = .asInit ∨ i = .asTick := by
  cases i <;> simp [writesOf]

theorem writes_eq_snapshot_iff (i : Instr) :
    writesOf i = .snapshot ↔
      (∃ x, i = .tdDecode x) ∨ i = .msgRt ∨ i = .msgBal ∨ ∃ n d, i = .tdBcast n d := by
  cases i <;> simp [writesOf]

theorem writes_eq_engine_or_poll_iff (i : Instr) :
    (writesOf i = .engine ∨ writesOf i = .poll) ↔
      (∃ x, i = .reStart x) ∨ i = .rePoll ∨ (∃ o p, i = .rxFill o p) ∨
        (∃ b0 b1 n r, i = .rxHdr b0 b1 n r) ∨ i = .reEnd := by
  cases i <;> simp [writesOf]

theorem writes_eq_poll_iff (i : Instr) : writesOf i = .poll ↔ i = .rePoll := by
  cases i <;> simp [writesOf]

theorem writes_eq_config_iff (i : Instr) : writesOf i = .config ↔ ∃ n v, i = .csrWr n v := by
  cases i <;> simp [writesOf]

/-- Settles O38: it holds. Every operation stays within the frame of its kind, and the operations of a kind are the
statement's list. -/
theorem onlyNamedOperationsWrite : Obligations.OnlyNamedOperationsWrite := by
  unfold Obligations.OnlyNamedOperationsWrite
  intro i s t h
  have hf : (writesOf i).Frame s t := exec_frame h
  obtain ⟨hcfg, hport, hscript⟩ := hf.inputs
  refine ⟨hcfg, hport, hscript, fun ht => ?_, fun ht => ?_, fun ht => ?_, fun ht => ?_⟩
  · simpa only [writes_eq_scheduler_iff, writes_eq_config_iff, or_assoc] using hf.sch ht
  · simpa only [writes_eq_snapshot_iff, writes_eq_config_iff, or_assoc] using hf.td ht
  · simpa only [writes_eq_engine_or_poll_iff, writes_eq_config_iff, or_assoc] using hf.re ht
  · exact (writes_eq_poll_iff i).1 (hf.transport ht)

end Sys2Proof.Machine

/-! SUPPORT. The invariants of R50, one group of registers at a time: what the fill tracking, the published buffer and
the scheduler each keep. -/

namespace Sys2Proof.Machine

open Config

/-! ### The invariants by group -/

/-- I1, the canonical form and D10: the fill tracking describes the buffer. -/
structure ReState.FillOk (re : ReState) : Prop where
  buf_wf : re.buf.wf = true
  unfilled_zero : ∀ (i : Nat) (h : i < BUF_CAP), re.filled[i] = false → re.buf.read i = 0
  filled_count : re.filled_len.toNat = re.filled.count true

/-- I4: there is no validated buffer. -/
structure ReState.Unpublished (re : ReState) : Prop where
  invalid : re.buf_valid = false
  len : re.buf_len = 0

/-- I2, I3: the engine is at rest with a buffer of exactly the declared length. -/
structure ReState.Published (re : ReState) : Prop where
  idle : re.re_busy = false
  valid : re.buf_valid = true
  header : re.hdr_seen = true
  len : re.buf_len = re.filled_len
  exact_len : re.filled_len.toNat = re.exp_len.toNat

/-- I1 to I6: the invariants of the engine. -/
structure ReState.Ok (re : ReState) (maxPolls : Nat) : Prop where
  fill : re.FillOk
  publish : re.Unpublished ∨ re.Published
  no_header : re.hdr_seen = false → re.exp_len = 0 ∧ re.hdr_b0 = 0 ∧ re.hdr_b1 = 0
  polls : re.re_polls ≤ maxPolls

/-- I7: the invariant of the scheduler. -/
def AsState.Ok (sch : AsState) : Prop :=
  sch.sch_init = false → sch.prio = .none ∧ sch.duty_fired = false ∧ sch.lowv_fired = false

/-- I1's bound: no more than all 50 indices are filled. -/
theorem ReState.FillOk.filled_le {re : ReState} (h : re.FillOk) : re.filled_len.toNat ≤ BUF_CAP := by
  rw [h.filled_count]
  exact Vector.count_le_size

theorem State.Inv.re_ok {s : State} (h : s.Inv) : s.re.Ok s.cfg.MAX_POLLS := by
  refine ⟨⟨h.buf_wf, h.unfilled_zero, h.filled_count⟩, ?_, h.no_header, h.polls_le⟩
  cases hv : s.re.buf_valid with
  | false => exact .inl ⟨hv, h.invalid_len hv⟩
  | true =>
    have hidle : s.re.re_busy = false := by
      by_contra hb
      simpa [hv] using h.busy_invalid (by simpa using hb)
    have hlen := h.valid_len hv
    exact .inr ⟨hidle, hv, h.valid_header hv, hlen, hlen ▸ h.valid_exp hv⟩

/-- The invariant of R50 from that of its groups. -/
theorem State.inv_of_groups {s : State} (hcfg : s.cfg.ok) (hre : s.re.Ok s.cfg.MAX_POLLS)
    (hsch : s.sch.Ok) : s.Inv := by
  obtain ⟨hfill, hpub, hhdr, hpolls⟩ := hre
  have hle := hfill.filled_le
  obtain ⟨hwf, hzero, hcount⟩ := hfill
  rcases hpub with ⟨hv, hlen⟩ | ⟨hidle, hv, hseen, hlen, hexact⟩
  · exact ⟨hcfg, hwf, hzero, hcount, hle, fun _ => hv, by simp [hv], by simp [hv], by simp [hv],
      by simp [hv], fun _ => hlen, hhdr, hpolls, hsch⟩
  · exact ⟨hcfg, hwf, hzero, hcount, hle, by simp [hidle], fun _ => hseen, fun _ => hlen,
      fun _ => hlen ▸ hexact, fun _ => hexact ▸ hle, by simp [hv], hhdr, hpolls, hsch⟩

/-! ### The fill tracking -/

/-- A run of stored bytes keeps `filled_len = popcount(filled)` and never lowers it (R24). -/
theorem ReState.storeBytes_count (re : ReState) (i : Nat) (vs : List Byte)
    (h : re.filled_len.toNat = re.filled.count true) :
    (re.storeBytes i vs).filled_len.toNat = (re.storeBytes i vs).filled.count true ∧
      re.filled_len.toNat ≤ (re.storeBytes i vs).filled_len.toNat := by
  induction vs generalizing re i with
  | nil => exact ⟨h, le_refl _⟩
  | cons v vs ih =>
    obtain ⟨hone, hle⟩ := re.storeByte_count i v h
    obtain ⟨hall, hle'⟩ := ih (re.storeByte i v) (i + 1) hone
    exact ⟨hall, hle.trans hle'⟩

/-- Settles O8: it holds, byte by byte. -/
theorem filledLenCountsDistinctIndices : Obligations.FilledLenCountsDistinctIndices := by
  unfold Obligations.FilledLenCountsDistinctIndices
  intro s o payload h
  exact ⟨_, rfl, s.re.storeBytes_count o.toNat payload h⟩

theorem ReState.FillOk.storeBytes {re : ReState} (h : re.FillOk) (i : Nat) (vs : List Byte) :
    (re.storeBytes i vs).FillOk where
  buf_wf := re.storeBytes_wf i vs h.buf_wf
  unfilled_zero a ha hf := by
    simp only [ReState.storeBytes_filled _ _ _ _ ha, Bool.or_eq_false_iff, decide_eq_false_iff_not] at hf
    obtain ⟨hold, hout⟩ := hf
    rw [ReState.storeBytes_read, dif_neg (fun hin => hout ⟨hin.1, hin.2.1⟩)]
    exact h.unfilled_zero a ha hold
  filled_count := (re.storeBytes_count i vs h.filled_count).1

theorem ReState.FillOk.of_eq {re re' : ReState} (h : re.FillOk) (hbuf : re'.buf = re.buf)
    (hfilled : re'.filled = re.filled) (hlen : re'.filled_len = re.filled_len) : re'.FillOk := by
  obtain ⟨hwf, hzero, hcount⟩ := h
  constructor <;> simpa only [hbuf, hfilled, hlen]

/-- An empty buffer with nothing marked. -/
theorem ReState.FillOk.of_empty {re : ReState} (hbuf : re.buf = [])
    (hfilled : re.filled = Vector.replicate BUF_CAP false) (hlen : re.filled_len = 0) : re.FillOk where
  buf_wf := by rw [hbuf]; rfl
  unfilled_zero i _ _ := by rw [hbuf, Memory.read_nil]
  filled_count := by rw [hfilled, hlen, count_replicate_false]; rfl

theorem ReState.FillOk.accept {re : ReState} (h : re.FillOk) (a : Answer) : (re.accept a).FillOk := by
  cases a with
  | noFrame => exact h
  | fill o payload => exact h.storeBytes o.toNat payload
  | header b0 b1 n rest => exact h.of_eq rfl rfl rfl
  | ignored f => exact h

/-! ### The engine -/

/-- Cleared cycle state meets the invariants, whatever the request registers and the window's origin hold
(R55, R120). -/
theorem ReState.Ok.of_cleared {re : ReState} (maxPolls : Nat) (hfill : re.FillOk) (hpub : re.Unpublished)
    (hhdr : re.exp_len = 0 ∧ re.hdr_b0 = 0 ∧ re.hdr_b1 = 0) (hpolls : re.re_polls = 0) :
    re.Ok maxPolls :=
  ⟨hfill, .inl hpub, fun _ => hhdr, by omega⟩

theorem ReState.reset_ok (maxPolls : Nat) : ReState.reset.Ok maxPolls :=
  .of_cleared maxPolls (.of_empty rfl rfl rfl) ⟨rfl, rfl⟩ ⟨rfl, rfl, rfl⟩ rfl

/-- RE.END publishes a buffer of the declared length, or none (R130). -/
theorem ReState.endCycle_publish (re : ReState) : re.endCycle.Unpublished ∨ re.endCycle.Published := by
  rcases re.endCycle_cases with ⟨hseen, hexact, e⟩ | ⟨-, e⟩
  · exact .inr (e ▸ ⟨rfl, rfl, hseen, rfl, hexact⟩)
  · exact .inl (e ▸ ⟨rfl, rfl⟩)

theorem ReState.Ok.endCycle {re : ReState} {n : Nat} (h : re.Ok n) : re.endCycle.Ok n where
  fill := h.fill.of_eq (by simp) (by simp) (by simp)
  publish := re.endCycle_publish
  no_header := by simpa using h.no_header
  polls := by simpa using h.polls

theorem ReState.Ok.earlyExit {re : ReState} {n : Nat} (h : re.Ok n) : re.earlyExit.Ok n := by
  rcases re.earlyExit_cases with ⟨-, e⟩ | ⟨-, e⟩ <;> rw [e]
  · exact h.endCycle
  · exact h

/-- While a cycle runs nothing is published (I2). -/
theorem ReState.Ok.unpublished {re : ReState} {n : Nat} (h : re.Ok n) (hb : re.re_busy = true) :
    re.Unpublished :=
  h.publish.resolve_right fun hp => by simp [hp.idle] at hb

/-- An answer keeps the invariants of a running cycle (R123, R124, R126, R127). -/
theorem ReState.Ok.accept {re : ReState} {n : Nat} (h : re.Ok n) (hb : re.re_busy = true) (a : Answer) :
    (re.accept a).Ok n where
  fill := h.fill.accept a
  publish := by
    obtain ⟨hv, hlen⟩ := h.unpublished hb
    exact .inl ⟨by simpa using hv, by simpa using hlen⟩
  no_header := by
    cases a with
    | noFrame => exact h.no_header
    | fill o payload => simpa [ReState.accept, ReState.fill] using h.no_header
    | header b0 b1 n rest => simp [ReState.accept]
    | ignored f => exact h.no_header
  polls := by simpa using h.polls

theorem ReState.Ok.countPoll {re : ReState} {n : Nat} (h : re.Ok n) (hlt : re.re_polls < n) :
    ReState.Ok { re with re_polls := re.re_polls + 1 } n where
  fill := h.fill.of_eq rfl rfl rfl
  publish := h.publish.imp (fun ⟨hv, hlen⟩ => ⟨hv, hlen⟩)
    (fun ⟨hidle, hv, hseen, hlen, hexact⟩ => ⟨hidle, hv, hseen, hlen, hexact⟩)
  no_header := h.no_header
  polls := hlt

/-! ### The operations -/

/-- The invariant is about the parameters, the engine and the scheduler alone. -/
theorem State.Inv.of_eq {s t : State} (h : s.Inv) (hcfg : t.cfg = s.cfg) (hre : t.re = s.re)
    (hsch : t.sch = s.sch) : t.Inv :=
  State.inv_of_groups (hcfg ▸ h.params_ok) (by rw [hre, hcfg]; exact h.re_ok) (hsch ▸ h.uninit)

theorem State.Inv.of_re {s t : State} (h : s.Inv) (hcfg : t.cfg = s.cfg)
    (hre : t.re.Ok s.cfg.MAX_POLLS) (hsch : t.sch = s.sch) : t.Inv :=
  State.inv_of_groups (hcfg ▸ h.params_ok) (hcfg ▸ hre) (hsch ▸ h.uninit)

theorem State.Inv.of_sch {s t : State} (h : s.Inv) (hcfg : t.cfg = s.cfg) (hre : t.re = s.re)
    (hsch : t.sch.Ok) : t.Inv :=
  State.inv_of_groups (hcfg ▸ h.params_ok) (by rw [hre, hcfg]; exact h.re_ok) hsch

theorem execReStart_keeps_inv {sel : Byte} {s t : State} (hs : s.Inv)
    (h : execReStart sel s = .next t) : t.Inv := by
  rcases execReStart_cases sel s with e | ⟨r, -, e⟩ <;> cases e.symm.trans h
  · exact hs.of_eq rfl rfl rfl
  · exact hs.of_re rfl (.of_cleared _ (.of_empty rfl rfl rfl) ⟨rfl, rfl⟩ ⟨rfl, rfl, rfl⟩ rfl) rfl

theorem State.Inv.iterate {s : State} (hs : s.Inv) (hb : s.re.re_busy = true)
    (hr : boundReached s = false) : s.iterate.Inv := by
  have hlt : s.re.re_polls < s.cfg.MAX_POLLS := by
    have hn := mt (boundReached_iff s).2 (by simp [hr])
    omega
  exact hs.of_re rfl ((hs.re_ok.countPoll hlt).accept hb _).earlyExit rfl

theorem execRePoll_keeps_inv {s t : State} (hs : s.Inv) (h : execRePoll s = .next t) : t.Inv := by
  rcases execRePoll_cases s with ⟨-, e⟩ | ⟨-, -, e⟩ | ⟨hb, hr, e⟩ <;> cases e.symm.trans h
  · exact hs
  · exact hs.of_re rfl hs.re_ok.endCycle rfl
  · exact hs.iterate hb hr

/-- An initialised scheduler meets I7 whatever else it holds. -/
theorem AsState.Ok.of_init {sch : AsState} (h : sch.sch_init = true) : sch.Ok :=
  fun hn => by simp [h] at hn

theorem execAsInit_keeps_inv {s t : State} (hs : s.Inv) (h : execAsInit s = .next t) : t.Inv := by
  rcases execAsInit_cases s with ⟨-, e⟩ | ⟨-, e⟩ <;> cases e.symm.trans h
  · exact hs.of_eq rfl rfl rfl
  · rw [State.queueChime_eq]
    exact hs.of_sch rfl rfl (.of_init rfl)

theorem execAsTick_keeps_inv {s t : State} (hs : s.Inv) (h : execAsTick s = .next t) : t.Inv := by
  rcases execAsTick_cases s with ⟨-, e⟩ | ⟨hinit, e⟩ <;> cases e.symm.trans h
  · exact hs.of_eq rfl rfl rfl
  · rw [State.tick_eq s _ _ _ rfl rfl rfl]
    exact hs.of_sch rfl rfl (.of_init hinit)

/-- Writing a configuration register keeps the invariants: none of them mentions one. -/
theorem execCsrWr_keeps_inv {n : Byte} {v : Dword} {s t : State} (hs : s.Inv)
    (h : execCsrWr n v s = .next t) : t.Inv := by
  rcases execCsrWr_cases n v s with ⟨c, -, e⟩ | ⟨r, u, -, hu, e⟩ <;> cases e.symm.trans h
  · exact hs.of_eq rfl rfl rfl
  · rw [csrStore_frame s v r u hu]
    cases hs
    constructor <;> assumption

/-- An operation that writes neither the engine nor the scheduler keeps the invariants. -/
theorem Writes.Frame.keeps_inv {w : Writes} {s t : State} (h : w.Frame s t)
    (hw : w = .nothing ∨ w = .snapshot) (hs : s.Inv) : t.Inv := by
  rcases hw with rfl | rfl <;> (rw [h]; exact hs.of_eq rfl rfl rfl)

/-- Every operation a sample of the ports can select keeps the invariants. -/
theorem exec_keeps_inv {i : Instr} {s t : State} (hi : hostCommand i = true ∨ i = .rePoll)
    (hs : s.Inv) (h : exec i s = .next t) : t.Inv := by
  cases i with
  | reStart sel => exact execReStart_keeps_inv hs h
  | rePoll => exact execRePoll_keeps_inv hs h
  | asInit => exact execAsInit_keeps_inv hs h
  | asTick => exact execAsTick_keeps_inv hs h
  | csrWr n v => exact execCsrWr_keeps_inv hs h
  | reRd | nop | csrRd => exact (exec_frame h).keeps_inv (.inl rfl) hs
  | tdDecode | tdBcast => exact (exec_frame h).keeps_inv (.inr rfl) hs
  | txReq | txReqRt | txReqBal | rxNone | rxFill | rxHdr | rxIgn | reEnd | msgRt | msgBal =>
    simp [hostCommand] at hi

/-- A command word decodes to a host command (R101). -/
theorem hostCommand_of_decodeCommand {w : BitVec 80} {i : Instr} (h : decodeCommand w = .ok i) :
    hostCommand i = true := by
  unfold decodeCommand at h
  split_ifs at h <;> cases h <;> rfl

/-- Settles O48: it holds, operation by operation; RE.POLL keeps the engine's invariants because an iteration starts below
the poll bound and ends in RE.END or with nothing published. -/
theorem invariantsKeptByEveryStep : Obligations.InvariantsKeptByEveryStep := by
  unfold Obligations.InvariantsKeptByEveryStep
  intro s t hs h
  have hsample : s.sample.Inv := hs.of_eq (by simp) (by simp) (by simp)
  rcases step_cases s with ⟨-, e⟩ | ⟨w, i, -, -, hd, e⟩ | ⟨w, r, -, -, -, e⟩ | ⟨-, -, -, e⟩ | ⟨-, -, -, e⟩
  · cases e.symm.trans h
    exact State.inv_of_groups hsample.params_ok (ReState.reset_ok _) (fun _ => ⟨rfl, rfl, rfl⟩)
  · exact exec_keeps_inv (.inl (hostCommand_of_decodeCommand hd)) hsample (e.symm.trans h)
  · cases e.symm.trans h
    exact hsample.of_eq rfl rfl rfl
  · exact exec_keeps_inv (.inr rfl) hsample (e.symm.trans h)
  · cases e.symm.trans h
    exact hsample

/-- Settles O49: it holds; reset clears the cycle state and the scheduler. -/
theorem invariantsHoldAtReset : Obligations.InvariantsHoldAtReset := by
  unfold Obligations.InvariantsHoldAtReset
  intro p hp
  exact State.inv_of_groups hp (ReState.reset_ok _) (fun _ => ⟨rfl, rfl, rfl⟩)

end Sys2Proof.Machine

/-! SUPPORT. The register map of R47 as one table: each register's number, width and content, and how reads and writes
use them. -/

namespace Sys2Proof.Machine

/-- The registers of R47, by rising number. -/
def csrList : List Csr :=
  [.CFG_DUTY_THR, .CFG_VOLT_THR, .CFG_DUTY_CD, .CFG_LOWV_CD, .CFG_CHIME_EN, .CFG_PRES_THR, .REQ_DEST,
    .REQ_TAG, .REQ_LEN, .REQ_PAY, .RE_STATUS, .RE_POLLS, .RE_T0, .SNAP_DUTY, .SNAP_ERPM, .SNAP_VOLT,
    .SNAP_BAL_STATUS, .SNAP_SENS_A, .SNAP_SENS_B, .SNAP_VALID, .BC_CH0, .BC_CH1, .BC_CH2, .BC_AUX,
    .BC_PRESENCE, .AS_STATUS, .AS_DUTY_LAST, .AS_LOWV_LAST, .AS_TONE_LAST]

/-- The number of a register (R47). -/
def csrNumber : Csr → Nat
  | .CFG_DUTY_THR => 0x00
  | .CFG_VOLT_THR => 0x01
  | .CFG_DUTY_CD => 0x02
  | .CFG_LOWV_CD => 0x03
  | .CFG_CHIME_EN => 0x04
  | .CFG_PRES_THR => 0x05
  | .REQ_DEST => 0x08
  | .REQ_TAG => 0x09
  | .REQ_LEN => 0x0A
  | .REQ_PAY => 0x0B
  | .RE_STATUS => 0x10
  | .RE_POLLS => 0x11
  | .RE_T0 => 0x12
  | .SNAP_DUTY => 0x20
  | .SNAP_ERPM => 0x21
  | .SNAP_VOLT => 0x22
  | .SNAP_BAL_STATUS => 0x23
  | .SNAP_SENS_A => 0x24
  | .SNAP_SENS_B => 0x25
  | .SNAP_VALID => 0x26
  | .BC_CH0 => 0x28
  | .BC_CH1 => 0x29
  | .BC_CH2 => 0x2A
  | .BC_AUX => 0x2B
  | .BC_PRESENCE => 0x2C
  | .AS_STATUS => 0x30
  | .AS_DUTY_LAST => 0x31
  | .AS_LOWV_LAST => 0x32
  | .AS_TONE_LAST => 0x33

/-- The width of a read-write register (R47). -/
def csrWidth : Csr → Option Nat
  | .CFG_DUTY_THR => some 16
  | .CFG_VOLT_THR => some 16
  | .CFG_DUTY_CD => some 32
  | .CFG_LOWV_CD => some 32
  | .CFG_CHIME_EN => some 1
  | .CFG_PRES_THR => some 16
  | .REQ_DEST => some 8
  | .REQ_TAG => some 8
  | .REQ_LEN => some 3
  | .REQ_PAY => some 56
  | _ => none

/-- What a register holds, as a number; `RE_POLLS` holds the whole count, of which a read gives 32 bits (log 2). -/
def csrContent (s : State) : Csr → Nat
  | .RE_POLLS => s.re.re_polls
  | r => (csrValue s r).toNat

theorem mem_csrList (r : Csr) : r ∈ csrList := by
  cases r <;> decide

/-- A response is no register. -/
theorem csrContent_respond (s : State) (c : RspCode) (v : Dword) (r : Csr) :
    csrContent (s.respond c v) r = csrContent s r := by
  cases r <;> rfl

/-! ### The map of R47 to R49 -/

theorem csrTable_eq (s : State) : csrTable s = csrList.map fun r => (csrNumber r, csrContent s r) := by
  simp [csrTable, csrList, csrNumber, csrContent, csrValue, reStatus_toNat, bit_toNat, snapValid_toNat,
    asStatus_toNat, BitVec.toNat_setWidth_of_le, -BitVec.toNat_setWidth]

theorem mem_csrTable_iff (s : State) (m x : Nat) :
    (m, x) ∈ csrTable s ↔ ∃ r, csrNumber r = m ∧ csrContent s r = x := by
  simp [csrTable_eq, mem_csrList]

/-- A number names a register iff it is the register's and not one of an absent broadcast part (R47). -/
theorem csrOf_eq_some_iff (b : Bool) (n : Byte) (r : Csr) :
    csrOf b n = some r ↔ csrNumber r = n.toNat ∧ (n.toNat ∈ bcastNumbers → b = true) := by
  constructor
  · -- Each number of the map is a case of its own; a broadcast number is refused where the part is absent.
    intro h
    unfold csrOf at h
    cases b <;> split at h <;> simp_all [bcastNumbers] <;> subst r <;> rfl
  · rintro ⟨hn, hb⟩
    cases r <;> simp_all [csrOf, csrNumber, bcastNumbers, ← hn]

theorem implemented_iff (s : State) (n : Byte) :
    Implemented s n.toNat ↔ ∃ r, csrOf s.cfg.HAS_BCAST n = some r := by
  simp [csrOf_eq_some_iff, Implemented, csrTable_eq, mem_csrList]

/-- The read-write registers are those of R47, with their widths. -/
theorem mem_rwTable_iff (r : Csr) (w : Nat) : (csrNumber r, w) ∈ rwTable ↔ csrWidth r = some w := by
  cases r <;> simp [csrNumber, csrWidth, rwTable, eq_comm]

/-- A read gives a register's content; a poll count fits its 32 bits under I6 (log 2). -/
theorem csrValue_toNat (s : State) (r : Csr) (h : s.re.re_polls < 2 ^ 32) :
    (csrValue s r).toNat = csrContent s r := by
  cases r with
  | RE_POLLS =>
    simp [csrValue, csrContent]
    omega
  | _ => rfl

theorem csrStore_of_readOnly (s : State) (v : Dword) {r : Csr} (h : csrWidth r = none) :
    csrStore s v r = none := by
  cases r <;> simp [csrWidth] at h <;> rfl

theorem csrStore_of_readWrite (s : State) (v : Dword) {r : Csr} {w : Nat} (h : csrWidth r = some w) :
    ∃ t, csrStore s v r = some t := by
  cases r <;> simp [csrWidth] at h <;> exact ⟨_, rfl⟩

/-- The lowest bit of a value, as a number. -/
theorem flag_getElem_zero (v : Dword) : flag v[0] = v.toNat % 2 := by
  rcases Nat.mod_two_eq_zero_or_one v.toNat with h | h <;> simp [BitVec.getElem_eq_testBit_toNat, flag, h]

/-- A write puts the value's low bits in its register (R202). -/
theorem csrContent_csrStore_same {s t : State} {v : Dword} {r : Csr} {w : Nat} (hw : csrWidth r = some w)
    (h : csrStore s v r = some t) : csrContent t r = v.toNat % 2 ^ w := by
  cases r <;> cases hw <;> cases h <;> simp [csrContent, csrValue, bit_toNat, flag_getElem_zero] <;>
    omega

/-- A write leaves every other register's content alone (R202). -/
theorem csrContent_csrStore_ne {s t : State} {v : Dword} {r r' : Csr} (h : csrStore s v r = some t)
    (hr : r' ≠ r) : csrContent t r' = csrContent s r' := by
  cases r <;> cases h <;> cases r' <;> simp only [ne_eq, reduceCtorEq, not_true, not_false_iff] at hr <;>
    rfl

/-- A write keeps every field that is no register of the map (R202). -/
theorem csrStore_keeps {s t : State} {v : Dword} {r : Csr} (h : csrStore s v r = some t) :
    t.outs = s.outs ∧ t.re.buf = s.re.buf ∧ t.re.filled = s.re.filled ∧ t.cfg = s.cfg ∧
      t.port = s.port ∧ t.script = s.script ∧ t.rxAnswers = s.rxAnswers ∧ t.free = s.free := by
  rw [csrStore_frame s v r t h]
  exact ⟨rfl, rfl, rfl, rfl, rfl, rfl, rfl, rfl⟩

/-! ### The two instructions -/

theorem exec_csrRd_of_unmapped {n : Byte} {s : State} (h : csrOf s.cfg.HAS_BCAST n = none) :
    exec (.csrRd n) s = .next (s.fail .badReg) := by
  simp [exec, execCsrRd, h]

theorem exec_csrRd_of_mapped {n : Byte} {s : State} {r : Csr} (h : csrOf s.cfg.HAS_BCAST n = some r) :
    exec (.csrRd n) s = .next (s.respond .ok (csrValue s r)) := by
  simp [exec, execCsrRd, h]

theorem exec_csrWr_of_unmapped {n : Byte} {v : Dword} {s : State} (h : csrOf s.cfg.HAS_BCAST n = none) :
    exec (.csrWr n v) s = .next (s.fail .badReg) := by
  simp [exec, execCsrWr, h]

theorem exec_csrWr_of_readOnly {n : Byte} {v : Dword} {s : State} {r : Csr}
    (h : csrOf s.cfg.HAS_BCAST n = some r) (hv : csrStore s v r = none) :
    exec (.csrWr n v) s = .next (s.fail .readOnly) := by
  simp [exec, execCsrWr, h, hv]

theorem exec_csrWr_of_readWrite {n : Byte} {v : Dword} {s t : State} {r : Csr}
    (h : csrOf s.cfg.HAS_BCAST n = some r) (hv : csrStore s v r = some t) :
    exec (.csrWr n v) s = .next (t.respond .ok 0) := by
  simp [exec, execCsrWr, h, hv]

/-- Settles O33: it holds; the number names one register, and the value read is that register's entry of the map. -/
theorem csrReadAnswersValue : Obligations.CsrReadAnswersValue := by
  unfold Obligations.CsrReadAnswersValue
  intro s n x hpolls hx hb
  obtain ⟨r, hr, rfl⟩ := (mem_csrTable_iff s _ _).1 hx
  exact ⟨_, exec_csrRd_of_mapped ((csrOf_eq_some_iff _ _ r).2 ⟨hr, hb⟩), csrValue_toNat s r hpolls⟩

/-- Settles O34: it holds; no register has the number. -/
theorem unimplementedCsrRefused : Obligations.UnimplementedCsrRefused := by
  unfold Obligations.UnimplementedCsrRefused
  intro s n v h
  have hnone : csrOf s.cfg.HAS_BCAST n = none := by
    rw [Option.eq_none_iff_forall_ne_some]
    exact fun r hr => h ((implemented_iff s n).2 ⟨r, hr⟩)
  exact ⟨exec_csrRd_of_unmapped hnone, exec_csrWr_of_unmapped hnone⟩

/-- Settles O35: it holds; the register of the number is read-only, or it is stored to while every other register keeps
its content. -/
theorem csrWriteTruncates : Obligations.CsrWriteTruncates := by
  unfold Obligations.CsrWriteTruncates
  intro s n v h
  obtain ⟨r, hr⟩ := (implemented_iff s n).1 h
  have hn : csrNumber r = n.toNat := ((csrOf_eq_some_iff _ _ r).1 hr).1
  simp only [← hn, mem_rwTable_iff, mem_csrTable_iff]
  constructor
  · intro hw
    exact exec_csrWr_of_readOnly hr (csrStore_of_readOnly s v (Option.eq_none_iff_forall_ne_some.2 hw))
  · intro w hw
    obtain ⟨t, ht⟩ := csrStore_of_readWrite s v hw
    obtain ⟨houts, hkept⟩ := csrStore_keeps ht
    refine ⟨t.respond .ok 0, exec_csrWr_of_readWrite hr ht, by simp [houts], ⟨r, rfl, ?_⟩, ?_, hkept⟩
    · rw [csrContent_respond, csrContent_csrStore_same hw ht]
    · intro m x hm
      refine exists_congr fun r' => and_congr_right fun hr' => ?_
      rw [csrContent_respond, csrContent_csrStore_ne ht fun e => hm (hr' ▸ e ▸ rfl)]

end Sys2Proof.Machine

/-! SUPPORT. The reset values of R55, and the transport's ports of R53 and R62. -/

namespace Sys2Proof.Machine

/-- Settles O42: it holds; every register's value is read off the reset record, and no index of the empty buffer reads
anything but 0x00. -/
theorem resetValues : Obligations.ResetValues := by
  unfold Obligations.ResetValues
  intro p
  have hbuf : ∀ i, (State.resetWith p).re.buf.read i = 0 := Memory.read_nil
  have hfilled : ∀ (i : Nat) (h : i < 50), (State.resetWith p).re.filled[i] = false :=
    fun _ h => Vector.getElem_replicate h
  exact ⟨⟨rfl, hbuf, hfilled, rfl, rfl, rfl, rfl, rfl, rfl, rfl, rfl, rfl, rfl, rfl, rfl, rfl⟩,
    ⟨rfl, rfl, rfl, rfl, rfl, rfl, rfl, rfl, rfl, rfl, rfl, rfl, rfl, rfl, rfl⟩,
    ⟨rfl, rfl, rfl, rfl, rfl, rfl, rfl, rfl, rfl, rfl, rfl, rfl⟩, rfl⟩

theorem RxPort.frame_of_invalid (a : RxPort) (h : a.rx_valid = false) : a.frame = none := by
  simp [RxPort.frame, h]

theorem RxPort.frame_of_valid (a : RxPort) (h : a.rx_valid = true) :
    a.frame = some { id := a.rx_id, length := a.rx_len, data := unpackBytes a.rx_data } := by
  simp [RxPort.frame, h]

/-- Byte `k` of an unpacked port is where R62 puts it. -/
theorem unpackBytes_portByte (d : Dword) (k : Nat) (h : k < 8) :
    (unpackBytes d)[k].toNat = portByte d k := by
  rw [unpackBytes_getElem d k h, byteOf_portByte]

/-- Byte `k` of a packed array is where R62 puts it. -/
theorem portByte_packBytes (b : Vector Byte 8) (k : Nat) (h : k < 8) :
    portByte (packBytes b) k = b[k].toNat := by
  rw [← byteOf_portByte, byteOf_packBytes b k h]

/-- A length that fits the four bits of `tx_len` is sent unchanged. -/
theorem TxPort.ofFrame_tx_len (f : Frame) (h : f.length.toNat < 16) :
    (TxPort.ofFrame f).tx_len.toNat = f.length.toNat := by
  rw [TxPort.ofFrame, BitVec.toNat_setWidth, Nat.mod_eq_of_lt h]

/-- Settles O57: it holds, by the byte positions of the 64-bit packing in both directions. -/
theorem transportPortsCarryFrames : Obligations.TransportPortsCarryFrames := by
  unfold Obligations.TransportPortsCarryFrames
  exact ⟨RxPort.frame_of_invalid,
    fun a h => ⟨_, a.frame_of_valid h, rfl, rfl, unpackBytes_portByte a.rx_data⟩,
    fun f => ⟨rfl, TxPort.ofFrame_tx_len f, portByte_packBytes f.data⟩,
    RxPort.frame_ofFrame⟩

end Sys2Proof.Machine

/-! SUPPORT. What a fill fragment stores (R64, R65), and why disjoint fragments commute (R71). -/

namespace Sys2Proof.Machine

open Config

/-! ### What a fragment stores -/

theorem exec_rxFill (o : Byte) (payload : List Byte) (s : State) :
    exec (.rxFill o payload) s = .next { s with re := s.re.fill o payload } := rfl

/-- Storing bytes keeps every register but the buffer and its fill tracking. -/
theorem ReState.storeBytes_frame (re : ReState) (i : Nat) (vs : List Byte) :
    re.storeBytes i vs =
      { re with
        buf := (re.storeBytes i vs).buf
        filled := (re.storeBytes i vs).filled
        filled_len := (re.storeBytes i vs).filled_len } := by
  ext1 <;> simp

/-- Settles O7: it holds, by what a run of stored bytes leaves at every index of the buffer and of the fill map. -/
theorem fillStoresOnlyInBoundsBytes : Obligations.FillStoresOnlyInBoundsBytes := by
  unfold Obligations.FillStoresOnlyInBoundsBytes
  intro s o payload
  refine ⟨_, exec_rxFill o payload s, fun k hk hin => ?_, fun a hout => ?_, s.re.storeBytes_filled o.toNat payload,
    congrArg (fun re => { s with re := re }) (s.re.storeBytes_frame o.toNat payload)⟩
  · refine (s.re.storeBytes_read o.toNat payload (o.toNat + k)).trans ?_
    rw [dif_pos ⟨by omega, by omega, hin⟩]
    simp only [Nat.add_sub_cancel_left]
  · exact (s.re.storeBytes_read o.toNat payload a).trans (dif_neg (by omega))

/-! ### Stores at distinct indices commute -/

/-- Equal buffers are equal lists in canonical form (log 8), so it is enough that they read alike. -/
theorem Memory.write_comm {m : Memory} (hm : m.wf = true) {i j : Nat} (v w : Byte) (hij : i ≠ j)
    (hi : i < BUF_CAP) (hj : j < BUF_CAP) :
    (m.write i v).write j w = (m.write j w).write i v := by
  refine Memory.eq_of_read _ _ (Memory.wf_write _ j w (Memory.wf_write m i v hm hi) hj)
    (Memory.wf_write _ i v (Memory.wf_write m j w hm hj) hi) fun a => ?_
  simp only [Memory.read_write]
  by_cases hai : a = i
  · simp [hai, hij]
  · simp [hai]

/-- Neither store touches the other's bit, so each counts its index as it would alone. -/
theorem ReState.storeByte_comm {re : ReState} (hm : re.buf.wf = true) {i j : Nat} (v w : Byte) (hij : i ≠ j) :
    (re.storeByte i v).storeByte j w = (re.storeByte j w).storeByte i v := by
  by_cases hi : i < BUF_CAP
  · by_cases hj : j < BUF_CAP
    · simp only [ReState.storeByte_inside, hi, hj, Memory.write_comm hm v w hij hi hj,
        Vector.set_comm true true hij, Vector.getElem_set_ne, ne_eq, hij, hij.symm, not_false_eq_true]
      cases re.filled[i] <;> cases re.filled[j] <;> rfl
    · simp only [ReState.storeByte_outside _ j w (Nat.le_of_not_lt hj)]
  · simp only [ReState.storeByte_outside _ i v (Nat.le_of_not_lt hi)]

theorem ReState.storeBytes_storeByte_comm {re : ReState} (hm : re.buf.wf = true) {i j : Nat} (v : Byte)
    (ws : List Byte) (hij : i < j) :
    (re.storeByte i v).storeBytes j ws = (re.storeBytes j ws).storeByte i v := by
  induction ws generalizing re j with
  | nil => rfl
  | cons w ws ih =>
    rw [ReState.storeBytes, ReState.storeBytes, ReState.storeByte_comm hm v w hij.ne]
    exact ih (re.storeByte_wf j w hm) (by omega)

/-- A run of stores that ends below another commutes with it. -/
theorem ReState.storeBytes_comm {re : ReState} (hm : re.buf.wf = true) {i j : Nat} (vs ws : List Byte)
    (hij : i + vs.length ≤ j) :
    (re.storeBytes i vs).storeBytes j ws = (re.storeBytes j ws).storeBytes i vs := by
  induction vs generalizing re i with
  | nil => rfl
  | cons v vs ih =>
    rw [List.length_cons] at hij
    rw [ReState.storeBytes, ReState.storeBytes, ih (re.storeByte_wf i v hm) (by omega),
      ReState.storeBytes_storeByte_comm hm v ws (by omega)]

/-- Settles O10: it holds; the fragment that ends below the other commutes with it. -/
theorem disjointFragmentsCommute : Obligations.DisjointFragmentsCommute := by
  unfold Obligations.DisjointFragmentsCommute
  intro s o₁ o₂ p₁ p₂ hm hdisj
  have hcomm : (s.re.fill o₁ p₁).fill o₂ p₂ = (s.re.fill o₂ p₂).fill o₁ p₁ := by
    rcases hdisj with h | h
    · exact ReState.storeBytes_comm hm p₁ p₂ h
    · exact (ReState.storeBytes_comm hm p₂ p₁ h).symm
  refine ⟨_, _, _, exec_rxFill o₁ p₁ s, exec_rxFill o₂ p₂ _, exec_rxFill o₂ p₂ s, ?_⟩
  simp only [exec_rxFill, hcomm]

end Sys2Proof.Machine

/-! SUPPORT. The decoder form by form (R95 to R101): the host op map as a relation between a word's fields and its
instruction, the receive classes by their tests, and both read back from what the encoder writes. -/

namespace Sys2Proof

open Config

/-! ### Host commands -/

/-- The host op map of R101: the fields of a command word, and the instruction they stand for. A field that the
instruction does not hold may be anything (R100). -/
inductive HostOp (a : Byte) (d : Dword) : Byte → Instr → Prop where
  | nop : HostOp a d 0x00 .nop
  | csrWr : HostOp a d 0x01 (.csrWr a d)
  | csrRd : HostOp a d 0x02 (.csrRd a)
  | reStart : HostOp a d 0x10 (.reStart a)
  | reRd : HostOp a d 0x12 (.reRd a)
  | tdDecode : HostOp a d 0x20 (.tdDecode a)
  | tdBcast : HostOp a d 0x21 (.tdBcast a d)
  | asInit : HostOp a d 0x30 .asInit
  | asTick : HostOp a d 0x31 .asTick

/-- The decoder reads the map of R101. -/
theorem decodeCommand_eq_ok_iff (w : BitVec 80) (i : Instr) :
    decodeCommand w = .ok i ↔ HostOp (cmdA w) (cmdD w) (cmdOp w) i := by
  constructor
  · intro h
    unfold decodeCommand at h
    split_ifs at h with h00 h01 h02 h10 h12 h20 h21 h30 h31 <;> cases h
    · exact h00 ▸ .nop
    · exact h01 ▸ .csrWr
    · exact h02 ▸ .csrRd
    · exact h10 ▸ .reStart
    · exact h12 ▸ .reRd
    · exact h20 ▸ .tdDecode
    · exact h21 ▸ .tdBcast
    · exact h30 ▸ .asInit
    · exact h31 ▸ .asTick
  · generalize hop : cmdOp w = op
    intro h
    cases h <;> simp [decodeCommand, hop]

theorem decode_commandWord_iff (p : Params) (op a : Byte) (d : Dword) (i : Instr) :
    decode p (.command (commandWord op a d)) = .ok i ↔ HostOp a d op i := by
  simp [decode, decodeCommand_eq_ok_iff]

/-- The op bytes of the map (R101). -/
theorem HostOp.op_mem {a op : Byte} {d : Dword} {i : Instr} (h : HostOp a d op i) :
    op.toNat ∈ [0x00, 0x01, 0x02, 0x10, 0x12, 0x20, 0x21, 0x30, 0x31] := by
  cases h <;> decide

theorem decode_command_eq_error (p : Params) (w : BitVec 80)
    (h : w.toNat / 2 ^ 72 ∉ [0x00, 0x01, 0x02, 0x10, 0x12, 0x20, 0x21, 0x30, 0x31]) :
    ∃ r, decode p (.command w) = .error r := by
  cases hd : decode p (.command w) with
  | error r => exact ⟨r, rfl⟩
  | ok i => exact absurd (cmdOp_toNat w ▸ ((decodeCommand_eq_ok_iff w i).1 hd).op_mem) h

/-! ### Received frames -/

/-- The test of R95 for a fill fragment. -/
def Frame.IsFill (p : Params) (f : Frame) : Prop :=
  f.id = fillId p ∧ 1 ≤ f.length.toNat ∧ f.length.toNat ≤ 8

/-- The test of R95 for a header frame. -/
def Frame.IsHeader (p : Params) (f : Frame) : Prop :=
  f.id = hdrId p ∧ 4 ≤ f.length.toNat ∧ f.length.toNat ≤ 8

theorem Frame.IsHeader.not_isFill {p : Params} {f : Frame} (h : f.IsHeader p) (hp : p.ok) : ¬f.IsFill p :=
  fun hf => fillId_ne_hdrId p hp (hf.1.symm.trans h.1)

theorem classify_of_isFill {p : Params} {f : Frame} (h : f.IsFill p) :
    classify p (some f) = .fill f.data[0] (f.bytes.drop 1) := if_pos h

theorem classify_of_isHeader {p : Params} {f : Frame} (hf : ¬f.IsFill p) (h : f.IsHeader p) :
    classify p (some f) =
      .header f.data[0] f.data[1] (be16 f.data[2] f.data[3]) (f.bytes.drop 4) :=
  (if_neg hf).trans (if_pos h)

theorem classify_of_neither {p : Params} {f : Frame} (hf : ¬f.IsFill p) (hh : ¬f.IsHeader p) :
    classify p (some f) = .ignored f :=
  (if_neg hf).trans (if_neg hh)

theorem wellFormed_rxIgn_iff (p : Params) (f : Frame) :
    WellFormed p (.rxIgn f) = true ↔ ¬f.IsFill p ∧ ¬f.IsHeader p := by
  simp only [WellFormed, Frame.IsFill, Frame.IsHeader, Bool.and_eq_true, Bool.not_eq_true', ← Bool.not_eq_true,
    beq_iff_eq, decide_eq_true_eq, and_assoc]

/-- Byte `k` of a frame's meaningful bytes is `data[k]` (R93). -/
theorem Frame.bytes_getElem (f : Frame) (k : Nat) (hk : k < f.bytes.length) (h8 : k < 8) :
    f.bytes[k] = f.data[k] := by
  simp [Frame.bytes]

theorem frameOf_length_toNat (id : Word) {l : List Byte} (h : l.length ≤ 8) :
    (frameOf id l).length.toNat = l.length := by
  simp only [frameOf, BitVec.toNat_ofNat]
  omega

theorem be16_extractLsb' (u : Half) : be16 (u.extractLsb' 8 8) (u.extractLsb' 0 8) = u := by
  have hu := u.isLt
  apply BitVec.eq_of_toNat_eq
  rw [be16_toNat, BitVec.extractLsb'_toNat, BitVec.extractLsb'_toNat, Nat.shiftRight_eq_div_pow]
  omega

/-- A fill fragment is read back from its frame (R96). -/
theorem classify_fill_toFrame (p : Params) (o : Byte) {payload : List Byte} (h : payload.length ≤ 7) :
    classify p ((Answer.fill o payload).toFrame p) = .fill o payload := by
  have hlen : (o :: payload).length ≤ 8 := Nat.succ_le_succ h
  have hfill : (frameOf (fillId p) (o :: payload)).IsFill p := by
    refine ⟨rfl, ?_⟩
    rw [frameOf_length_toNat _ hlen]
    exact ⟨Nat.succ_pos _, hlen⟩
  rw [Answer.toFrame, classify_of_isFill hfill, frameOf_bytes _ _ hlen]
  rfl

/-- A header frame is read back from its frame (R97). -/
theorem classify_header_toFrame {p : Params} (hp : p.ok) (b0 b1 : Byte) (n : Half) {rest : List Byte}
    (h : rest.length ≤ 4) :
    classify p ((Answer.header b0 b1 n rest).toFrame p) = .header b0 b1 n rest := by
  have hlen : (b0 :: b1 :: n.extractLsb' 8 8 :: n.extractLsb' 0 8 :: rest).length ≤ 8 :=
    Nat.add_le_add_right h 4
  have hhdr : (frameOf (hdrId p) (b0 :: b1 :: n.extractLsb' 8 8 :: n.extractLsb' 0 8 :: rest)).IsHeader p := by
    refine ⟨rfl, ?_⟩
    rw [frameOf_length_toNat _ hlen]
    exact ⟨Nat.le_add_left 4 _, hlen⟩
  rw [Answer.toFrame, classify_of_isHeader (hhdr.not_isFill hp) hhdr, frameOf_bytes _ _ hlen]
  exact congrArg (Answer.header b0 b1 · rest) (be16_extractLsb' n)

/-! ### The round trips -/

theorem shapeOf_balance {p : Params} (hp : p.ok) : shapeOf p p.TAG_BAL LEN_BAL = some .balance := by
  rw [shapeOf, if_neg hp.bal_not_rt, if_pos rfl, if_pos rfl]

theorem decode_answer_of_classify {p : Params} {a : Option Frame} {c : Answer} (h : classify p a = c) :
    decode p (.answer a) = .ok c.toInstr := by
  rw [decode, h]

/-- Settles O52: it holds, form by form; a frame's class is read back from its identifier, its length and its bytes. -/
theorem decodeOfEncode : Obligations.DecodeOfEncode := by
  unfold Obligations.DecodeOfEncode
  intro p hp i hi
  cases i with
  | reStart sel => exact (decode_commandWord_iff ..).2 .reStart
  | reRd x => exact (decode_commandWord_iff ..).2 .reRd
  | tdDecode tag => exact (decode_commandWord_iff ..).2 .tdDecode
  | tdBcast n d => exact (decode_commandWord_iff ..).2 .tdBcast
  | asInit => exact (decode_commandWord_iff ..).2 .asInit
  | asTick => exact (decode_commandWord_iff ..).2 .asTick
  | nop => exact (decode_commandWord_iff ..).2 .nop
  | csrWr n v => exact (decode_commandWord_iff ..).2 .csrWr
  | csrRd n => exact (decode_commandWord_iff ..).2 .csrRd
  | rxFill o payload =>
    have hlen : payload.length ≤ 7 := of_decide_eq_true hi
    exact decode_answer_of_classify (classify_fill_toFrame p o hlen)
  | rxHdr b0 b1 n rest =>
    have hlen : rest.length ≤ 4 := of_decide_eq_true hi
    exact decode_answer_of_classify (classify_header_toFrame hp b0 b1 n hlen)
  | rxIgn f =>
    obtain ⟨hfill, hhdr⟩ := (wellFormed_rxIgn_iff p f).1 hi
    exact decode_answer_of_classify (classify_of_neither hfill hhdr)
  | msgBal =>
    rw [encode, decode, shapeOf_balance hp]
    rfl
  | txReq | txReqRt | txReqBal | rePoll | rxNone | reEnd | msgRt => rfl

/-- A host command holds no operand that is bounded by more than its type. -/
theorem wellFormed_of_hostCommand (p : Params) {i : Instr} (h : Machine.hostCommand i = true) :
    WellFormed p i = true := by
  cases i with
  | reStart | reRd | tdDecode | tdBcast | asInit | asTick | nop | csrWr | csrRd => rfl
  | txReq | txReqRt | txReqBal | rePoll | rxNone | rxFill | rxHdr | rxIgn | reEnd | msgRt | msgBal =>
    cases h

/-- Every class has the operands its format allows (R96, R97). -/
theorem wellFormed_classify (p : Params) (a : Option Frame) : WellFormed p (classify p a).toInstr = true := by
  cases a with
  | none => rfl
  | some f =>
    by_cases hfill : f.IsFill p
    · rw [classify_of_isFill hfill]
      simp only [Answer.toInstr, WellFormed, List.length_drop, f.bytes_length, decide_eq_true_eq]
      omega
    · by_cases hhdr : f.IsHeader p
      · rw [classify_of_isHeader hfill hhdr]
        simp only [Answer.toInstr, WellFormed, List.length_drop, f.bytes_length, decide_eq_true_eq]
        omega
      · rw [classify_of_neither hfill hhdr]
        exact (wellFormed_rxIgn_iff p f).2 ⟨hfill, hhdr⟩

/-- Settles O53: it holds; only the receive classes bound an operand. -/
theorem decodedInstructionsAreWellFormed : Obligations.DecodedInstructionsAreWellFormed := by
  unfold Obligations.DecodedInstructionsAreWellFormed
  intro p c i h
  cases c with
  | command w => exact wellFormed_of_hostCommand p (Machine.hostCommand_of_decodeCommand h)
  | answer a =>
    cases h
    exact wellFormed_classify p a
  | request sel =>
    rw [decode] at h
    split at h
    · next r _ =>
      cases h
      cases r <;> rfl
    · cases h
  | shape tag len =>
    rw [decode] at h
    split at h
    · next m _ =>
      cases h
      cases m <;> rfl
    · cases h
  | sequencer bound =>
    cases h
    cases bound <;> rfl

/-- Settles O4: it holds; the tests of the three classes are numbers' comparisons, and each class has its operands. -/
theorem receiveClassification : Obligations.ReceiveClassification := by
  unfold Obligations.ReceiveClassification
  intro p hp f
  simp only [← eq_fillId_iff, ← eq_hdrId_iff]
  refine ⟨fun hfill => ⟨_, decode_answer_of_classify (classify_of_isFill hfill), ?_, fun k h h' => ?_⟩,
    fun hhdr => ⟨_, _, decode_answer_of_classify
      (classify_of_isHeader (Frame.IsHeader.not_isFill hhdr hp) hhdr), be16_toNat _ _⟩,
    fun hfill hhdr => decode_answer_of_classify (classify_of_neither hfill hhdr),
    fun ⟨hfill, hhdr⟩ => Frame.IsHeader.not_isFill hhdr hp hfill⟩
  · obtain ⟨-, hpos, hle⟩ := hfill
    rw [List.length_drop, f.bytes_length]
    omega
  · rw [List.getElem_drop, f.bytes_getElem _ _ h']

/-- What O54 asks of a command word, from the fields `a'`, `d'` the encoder writes: each is the word's, or the operation
ignores it. -/
theorem reencode_command {p : Params} {i : Instr} {op a a' : Byte} {d d' : Dword}
    (henc : encode p i = .command (commandWord op a' d')) (hdec : HostOp a' d' op i)
    (ha : a' = a ∨ ∀ x, HostOp x d op i) (hd : d' = d ∨ ∀ x, HostOp a x op i) :
    ∃ w', encode p i = .command w' ∧ cmdOp w' = op ∧ decode p (.command w') = .ok i ∧
      (cmdA w' = a ∨ ∀ x : Byte, decode p (.command (commandWord op x d)) = .ok i) ∧
      (cmdD w' = d ∨ ∀ x : Dword, decode p (.command (commandWord op a x)) = .ok i) := by
  simp only [decode_commandWord_iff]
  exact ⟨_, henc, cmdOp_commandWord .., (decode_commandWord_iff ..).2 hdec,
    by rwa [cmdA_commandWord], by rwa [cmdD_commandWord]⟩

/-- Settles O54: it holds; the fields an operation of the map ignores are those its instruction does not hold. -/
theorem encodeOfDecodedCommand : Obligations.EncodeOfDecodedCommand := by
  unfold Obligations.EncodeOfDecodedCommand
  intro p w i h
  refine ⟨Machine.hostCommand_of_decodeCommand h, ?_⟩
  have hop := (decodeCommand_eq_ok_iff w i).1 h
  generalize cmdOp w = op at hop ⊢
  cases hop with
  | nop => exact reencode_command rfl .nop (.inr fun _ => .nop) (.inr fun _ => .nop)
  | asInit => exact reencode_command rfl .asInit (.inr fun _ => .asInit) (.inr fun _ => .asInit)
  | asTick => exact reencode_command rfl .asTick (.inr fun _ => .asTick) (.inr fun _ => .asTick)
  | csrRd => exact reencode_command rfl .csrRd (.inl rfl) (.inr fun _ => .csrRd)
  | reStart => exact reencode_command rfl .reStart (.inl rfl) (.inr fun _ => .reStart)
  | reRd => exact reencode_command rfl .reRd (.inl rfl) (.inr fun _ => .reRd)
  | tdDecode => exact reencode_command rfl .tdDecode (.inl rfl) (.inr fun _ => .tdDecode)
  | csrWr => exact reencode_command rfl .csrWr (.inl rfl) (.inl rfl)
  | tdBcast => exact reencode_command rfl .tdBcast (.inl rfl) (.inl rfl)

/-- Settles O55: it holds; each form is a closed term. -/
theorem sampleWordsDecode : Obligations.SampleWordsDecode := by
  unfold Obligations.SampleWordsDecode
  decide

end Sys2Proof

/-! SUPPORT. Commands on the host port: which step they select (R70, R101), the one response each gives (R102, R203), and
the request frames they send (R98). -/

namespace Sys2Proof.Machine

/-! ### The step of a scheduled command -/

/-- Settles O44: it holds; the decoded instruction is what the sample selects. -/
theorem stepRunsDecodedCommand : Obligations.StepRunsDecodedCommand := by
  unfold Obligations.StepRunsDecodedCommand
  intro s p rest w i hscript hrst hcmd hdec
  simp [step, State.selected, State.sample_scheduled s p rest hscript, hrst, hcmd, hdec]

/-- Settles O45: it holds; the decoder rejects every op byte outside the map. -/
theorem undefinedOpAnswersBadOp : Obligations.UndefinedOpAnswersBadOp := by
  unfold Obligations.UndefinedOpAnswersBadOp
  intro s p rest w hscript hrst hcmd hop
  obtain ⟨r, hdec⟩ := decode_command_eq_error s.cfg w hop
  simp [step, State.selected, State.sample_scheduled s p rest hscript, hrst, hcmd, hdec, State.fail,
    State.respond, State.emit]

/-! ### Responses -/

/-- The result is a next state reached with exactly one response, the last of its outputs (R102). -/
def AnswersOnce (s : State) (r : Result) : Prop :=
  ∃ t, r = .next t ∧ ∃ c v new, t.outs = .respond c v :: (new ++ s.outs) ∧ new.countP isResponse = 0

/-- The result is a next state reached without a response. -/
def Silent (s : State) (r : Result) : Prop :=
  ∃ t, r = .next t ∧ t.outs.countP isResponse = s.outs.countP isResponse

theorem AnswersOnce.respond {s u : State} (new : List Output) (hu : u.outs = new ++ s.outs)
    (hnew : new.countP isResponse = 0) (c : RspCode) (v : Dword) : AnswersOnce s (.next (u.respond c v)) :=
  ⟨_, rfl, c, v, new, congrArg _ hu, hnew⟩

theorem AnswersOnce.fail (s : State) (c : RspCode) : AnswersOnce s (.next (s.fail c)) :=
  .respond [] rfl rfl c 0

/-- An output made only under a condition, and that is no response. -/
theorem countP_isResponse_ite (b : Bool) {o : Output} (h : isResponse o = false) :
    (if b then [o] else []).countP isResponse = 0 := by
  cases b <;> simp [h]

theorem execReStart_answersOnce (sel : Byte) (s : State) : AnswersOnce s (execReStart sel s) := by
  rcases execReStart_cases sel s with e | ⟨r, -, e⟩ <;> rw [e]
  · exact .fail s _
  · exact .respond [.tx (TxPort.ofFrame (descriptor s r).frame)] rfl rfl _ _

theorem execReRd_answersOnce (x : Byte) (s : State) : AnswersOnce s (execReRd x s) := by
  obtain ⟨c, v, e, -⟩ := execReRd_cases x s
  rw [e]
  exact .respond [] rfl rfl c v

theorem execTdDecode_answersOnce (tag : Byte) (s : State) : AnswersOnce s (execTdDecode tag s) := by
  rcases execTdDecode_cases tag s with ⟨c, -, e⟩ | ⟨m, -, -, e⟩ <;> rw [e]
  · exact .fail s c
  · exact .respond [] rfl rfl _ _

theorem execTdBcast_answersOnce (n : Byte) (d : Dword) (s : State) : AnswersOnce s (execTdBcast n d s) := by
  rcases execTdBcast_cases n d s with ⟨c, -, e⟩ | ⟨-, -, e⟩ <;> rw [e]
  · exact .fail s c
  · exact .respond [] rfl rfl _ _

theorem execAsInit_answersOnce (s : State) : AnswersOnce s (execAsInit s) := by
  rcases execAsInit_cases s with ⟨-, e⟩ | ⟨-, e⟩ <;> rw [e]
  · exact .fail s _
  · rw [State.queueChime_eq]
    exact .respond _ rfl (countP_isResponse_ite _ rfl) _ _

theorem execAsTick_answersOnce (s : State) : AnswersOnce s (execAsTick s) := by
  rcases execAsTick_cases s with ⟨-, e⟩ | ⟨-, e⟩ <;> rw [e]
  · exact .fail s _
  · rw [State.tick_eq s _ _ _ rfl rfl rfl]
    simp only [← List.append_assoc]
    refine .respond _ rfl ?_ _ _
    simp only [List.countP_append, countP_isResponse_ite _ (o := .toneEnqueue _) rfl,
      countP_isResponse_ite _ (o := .toneTick) rfl]

theorem execCsrRd_answersOnce (n : Byte) (s : State) : AnswersOnce s (execCsrRd n s) := by
  rcases execCsrRd_cases n s with ⟨-, e⟩ | ⟨r, -, e⟩ <;> rw [e]
  · exact .fail s _
  · exact .respond [] rfl rfl _ _

theorem execCsrWr_answersOnce (n : Byte) (v : Dword) (s : State) : AnswersOnce s (execCsrWr n v s) := by
  rcases execCsrWr_cases n v s with ⟨c, -, e⟩ | ⟨r, u, -, hu, e⟩ <;> rw [e]
  · exact .fail s c
  · exact .respond [] (csrStore_keeps hu).1 rfl _ _

theorem exec_answersOnce {i : Instr} (h : hostCommand i = true) (s : State) : AnswersOnce s (exec i s) := by
  cases i with
  | reStart sel => exact execReStart_answersOnce sel s
  | reRd x => exact execReRd_answersOnce x s
  | tdDecode tag => exact execTdDecode_answersOnce tag s
  | tdBcast n d => exact execTdBcast_answersOnce n d s
  | asInit => exact execAsInit_answersOnce s
  | asTick => exact execAsTick_answersOnce s
  | nop => exact .respond [] rfl rfl _ _
  | csrWr n v => exact execCsrWr_answersOnce n v s
  | csrRd n => exact execCsrRd_answersOnce n s
  | txReq | txReqRt | txReqBal | rePoll | rxNone | rxFill | rxHdr | rxIgn | reEnd | msgRt | msgBal =>
    cases h

/-- RE.POLL outputs its poll or nothing (R122). -/
theorem execRePoll_silent (s : State) : Silent s (execRePoll s) := by
  rcases execRePoll_cases s with ⟨-, e⟩ | ⟨-, -, e⟩ | ⟨-, -, e⟩ <;> exact ⟨_, e, rfl⟩

theorem exec_silent {i : Instr} (h : hostCommand i = false) (s : State) : Silent s (exec i s) := by
  cases i with
  | rePoll => exact execRePoll_silent s
  | txReq | txReqRt | txReqBal | rxNone | rxFill | rxHdr | rxIgn | reEnd | msgRt | msgBal =>
    exact ⟨_, rfl, rfl⟩
  | reStart | reRd | tdDecode | tdBcast | asInit | asTick | nop | csrWr | csrRd => cases h

/-- Settles O36: it holds, operation by operation. -/
theorem everyCommandAnswersOnce : Obligations.EveryCommandAnswersOnce := by
  unfold Obligations.EveryCommandAnswersOnce
  intro i s
  cases h : hostCommand i with
  | true =>
    obtain ⟨t, ht, hanswer⟩ := exec_answersOnce h s
    exact ⟨t, ht, fun _ => hanswer, nofun⟩
  | false =>
    obtain ⟨t, ht, hsilent⟩ := exec_silent h s
    exact ⟨t, ht, nofun, fun _ => hsilent⟩

/-! ### Request frames -/

/-- The payload of TX.REQ is the first `REQ_LEN` bytes of `REQ_PAY` (R121). -/
theorem descriptorOwn_payload_length (s : State) :
    (descriptorOwn s).payload.length = s.re.REQ_LEN.toNat := by
  have := s.re.REQ_LEN.isLt
  simp only [descriptorOwn, reqBytes, List.length_take, List.length_cons, List.length_nil]
  omega

theorem reqBytes_getElem (d : BitVec 56) (k : Nat) (h : k < (reqBytes d).length) :
    (reqBytes d)[k] = payByte d k := by
  simp only [reqBytes, List.length_cons, List.length_nil] at h
  interval_cases k <;> rfl

theorem ownRequest_descriptorOwn (s : State) :
    OwnRequest s (TxPort.ofFrame (descriptorOwn s).frame) := by
  have hlen := descriptorOwn_payload_length s
  have hlt := s.re.REQ_LEN.isLt
  rw [OwnRequest, ← hlen]
  refine frameOf_frameIs _ _ _ _ (by omega) fun k h => ?_
  have hk : k < (reqBytes s.re.REQ_PAY).length := by
    simp only [reqBytes, List.length_cons, List.length_nil]
    omega
  rw [← payByte_toNat, ← reqBytes_getElem _ k hk]
  exact congrArg _ List.getElem_take

theorem realtimeRequest_descriptorRt (s : State) :
    RealtimeRequest s (TxPort.ofFrame (descriptorRt s).frame) := by
  refine frameOf_frameIs _ _ (descriptorRt s).payload _ (by simp [descriptorRt]) fun k h => ?_
  simp only [descriptorRt, List.length_cons, List.length_nil] at h
  interval_cases k <;> rfl

theorem balanceRequest_descriptorBal (s : State) :
    BalanceRequest s (TxPort.ofFrame (descriptorBal s).frame) := by
  refine frameOf_frameIs _ _ (descriptorBal s).payload _ (by simp [descriptorBal]) fun k h => ?_
  simp only [descriptorBal, List.length_cons, List.length_nil] at h
  interval_cases k <;> rfl

/-- Settles O2: it holds; each request is its descriptor's frame on the send ports. -/
theorem requestFramesAreBitExact : Obligations.RequestFramesAreBitExact := by
  unfold Obligations.RequestFramesAreBitExact
  intro s
  exact ⟨⟨_, ownRequest_descriptorOwn s, rfl⟩, ⟨_, realtimeRequest_descriptorRt s, rfl⟩,
    ⟨_, balanceRequest_descriptorBal s, rfl⟩⟩

end Sys2Proof.Machine

/-! SUPPORT. The reassembly engine one operation at a time: the cycle's start (R120), one answer of a poll (R122 to
R127), the cycle's end (R129 to R131), and reading the buffer (R132). -/

namespace Sys2Proof.Machine

open Config

/-! ### Beginning a cycle -/

/-- The selectors of R121 by number; every other one is refused (R120). -/
theorem requestOf_cases (sel : Byte) :
    (sel.toNat = 0 ∧ requestOf sel = some .own) ∨ (sel.toNat = 1 ∧ requestOf sel = some .realtime) ∨
      (sel.toNat = 2 ∧ requestOf sel = some .balance) ∨ (2 < sel.toNat ∧ requestOf sel = none) := by
  unfold requestOf
  split_ifs with h0 h1 h2
  · exact .inl ⟨congrArg BitVec.toNat h0, rfl⟩
  · exact .inr (.inl ⟨congrArg BitVec.toNat h1, rfl⟩)
  · exact .inr (.inr (.inl ⟨congrArg BitVec.toNat h2, rfl⟩))
  · exact .inr (.inr (.inr ⟨by bv_omega, rfl⟩))

/-- Each legal selector sends its own request frame (R98, R121). -/
theorem requestOf_of_le {sel : Byte} (h : sel.toNat ≤ 2) (s : State) :
    ∃ r, requestOf sel = some r ∧
      (sel.toNat = 0 → OwnRequest s (TxPort.ofFrame (descriptor s r).frame)) ∧
      (sel.toNat = 1 → RealtimeRequest s (TxPort.ofFrame (descriptor s r).frame)) ∧
      (sel.toNat = 2 → BalanceRequest s (TxPort.ofFrame (descriptor s r).frame)) := by
  rcases requestOf_cases sel with ⟨hsel, hr⟩ | ⟨hsel, hr⟩ | ⟨hsel, hr⟩ | ⟨hsel, -⟩
  · exact ⟨.own, hr, fun _ => ownRequest_descriptorOwn s, by omega, by omega⟩
  · exact ⟨.realtime, hr, by omega, fun _ => realtimeRequest_descriptorRt s, by omega⟩
  · exact ⟨.balance, hr, by omega, by omega, fun _ => balanceRequest_descriptorBal s⟩
  · omega

theorem requestOf_of_lt {sel : Byte} (h : 2 < sel.toNat) : requestOf sel = none := by
  rcases requestOf_cases sel with ⟨hsel, -⟩ | ⟨hsel, -⟩ | ⟨hsel, -⟩ | ⟨-, hr⟩
  · omega
  · omega
  · omega
  · exact hr

/-- Settles O1: it holds; a legal selector names one request, and the cycle's registers are cleared around its frame. -/
theorem reStartBeginsCycle : Obligations.ReStartBeginsCycle := by
  unfold Obligations.ReStartBeginsCycle
  intro s sel
  refine ⟨fun h => exec_reStart_of_badSelector s (requestOf_of_lt h), fun h => ?_⟩
  obtain ⟨r, hr, hown, hrt, hbal⟩ := requestOf_of_le h s
  exact ⟨_, _, exec_reStart_of_request s hr, rfl, hown, hrt, hbal, Memory.read_nil,
    fun i hi => Vector.getElem_replicate hi, rfl⟩

/-! ### One poll -/

theorem exec_reEnd (s : State) : exec .reEnd s = .next { s with re := s.re.endCycle } := rfl

theorem ReState.earlyExit_of_complete {re : ReState} (h : complete re = true) :
    re.earlyExit = re.endCycle := by
  rw [ReState.earlyExit, if_pos h]

theorem ReState.earlyExit_of_incomplete {re : ReState} (h : complete re = false) : re.earlyExit = re := by
  rw [ReState.earlyExit, if_neg (by simp [h])]

/-- Settles O3: it holds; the three cases of RE.POLL, the last with its answer's own effect and then the early-exit
test. -/
theorem pollTakesOneAnswerUnlessBounded : Obligations.PollTakesOneAnswerUnlessBounded := by
  unfold Obligations.PollTakesOneAnswerUnlessBounded
  intro s
  refine ⟨exec_rePoll_of_idle s, fun hb hr => ?_, fun hb hpolls htime => ?_, fun a rest h => ?_⟩
  · exact ⟨_, exec_reEnd s, exec_rePoll_of_bound s hb ((boundReached_iff s).2 hr)⟩
  · have hr : boundReached s = false := by
      rw [← Bool.not_eq_true, boundReached_iff]
      omega
    have hpoll := exec_rePoll_of_turn s hb hr
    refine ⟨_, exec_answer _ _, fun hc => ⟨_, exec_reEnd _, ?_⟩, fun hc => ?_⟩
    · rw [hpoll, State.iterate_eq, ReState.earlyExit_of_complete ((complete_iff _).2 hc)]
      rfl
    · rw [hpoll, State.iterate_eq,
        ReState.earlyExit_of_incomplete (by rw [← Bool.not_eq_true]; exact mt (complete_iff _).1 hc)]
      rfl
  · obtain ⟨hport, -, -⟩ := s.pollTransport_scheduled a rest h
    refine ⟨congrArg RxPort.frame hport, ?_⟩
    simp [State.pollTransport, h]

/-- Settles O5: it holds; no frame is a class of its own, and that class changes nothing. -/
theorem noFrameHasNoEffect : Obligations.NoFrameHasNoEffect := by
  unfold Obligations.NoFrameHasNoEffect
  exact fun p s => ⟨decode_answer_of_classify rfl, exec_answer .noFrame s⟩

/-- Settles O6: it holds; the class changes nothing. -/
theorem ignoredFrameHasNoEffect : Obligations.IgnoredFrameHasNoEffect := by
  unfold Obligations.IgnoredFrameHasNoEffect
  exact fun f s => exec_answer (.ignored f) s

/-- Settles O11: it holds; the header's registers are written whatever they held. -/
theorem headerOverwrites : Obligations.HeaderOverwrites := by
  unfold Obligations.HeaderOverwrites
  exact fun s b0 b1 n rest => exec_answer (.header b0 b1 n rest) s

/-! ### A repeated fragment -/

/-- Writing the byte an index holds changes nothing: equal buffers are equal lists in canonical form (log 8). -/
theorem Memory.write_eq_self {m : Memory} (hm : m.wf = true) {i : Nat} {v : Byte} (hi : i < BUF_CAP)
    (hv : m.read i = v) : m.write i v = m := by
  refine Memory.eq_of_read _ _ (Memory.wf_write m i v hm hi) hm fun a => ?_
  rw [Memory.read_write]
  split
  · next ha => rw [ha, hv]
  · rfl

theorem ReState.storeByte_eq_self {re : ReState} (hm : re.buf.wf = true) {i : Nat} {v : Byte}
    (h : ∀ hi : i < BUF_CAP, re.filled[i] = true ∧ re.buf.read i = v) : re.storeByte i v = re := by
  by_cases hi : i < BUF_CAP
  · obtain ⟨hf, hv⟩ := h hi
    have hset : re.filled.set i true = re.filled := by
      rw [← hf]
      exact Vector.set_getElem_self hi
    rw [ReState.storeByte_inside re i v hi, Memory.write_eq_self hm hi hv, hset, if_pos hf]
  · exact re.storeByte_outside i v (Nat.le_of_not_lt hi)

/-- Storing bytes that are all there changes nothing. -/
theorem ReState.storeBytes_eq_self {re : ReState} (hm : re.buf.wf = true) {i : Nat} {vs : List Byte}
    (h : ∀ (k : Nat) (hk : k < vs.length) (hi : i + k < BUF_CAP),
      re.filled[i + k] = true ∧ re.buf.read (i + k) = vs[k]) : re.storeBytes i vs = re := by
  induction vs generalizing i with
  | nil => rfl
  | cons v vs ih =>
    have hfirst : re.storeByte i v = re := ReState.storeByte_eq_self hm fun hi => h 0 (by simp) hi
    rw [ReState.storeBytes, hfirst]
    refine ih fun k hk hi => ?_
    have hnext := h (k + 1) (by simpa using hk) (by omega)
    simpa only [Nat.add_assoc, Nat.add_comm 1 k, List.getElem_cons_succ] using hnext

/-- After a run of stores every byte of it within the capacity is there and marked. -/
theorem ReState.storeBytes_twice {re : ReState} (hm : re.buf.wf = true) (i : Nat) (vs : List Byte) :
    (re.storeBytes i vs).storeBytes i vs = re.storeBytes i vs := by
  refine ReState.storeBytes_eq_self (re.storeBytes_wf i vs hm) fun k hk hi => ?_
  rw [ReState.storeBytes_filled _ _ _ _ hi, ReState.storeBytes_read, dif_pos ⟨by omega, by omega, hi⟩]
  simp [hk]

/-- Settles O9: it holds; the second time the fragment stores bytes that are all there. -/
theorem repeatedFragmentChangesNothing : Obligations.RepeatedFragmentChangesNothing := by
  unfold Obligations.RepeatedFragmentChangesNothing
  intro s o payload hm
  have hrep : (s.re.fill o payload).fill o payload = s.re.fill o payload :=
    ReState.storeBytes_twice hm o.toNat payload
  refine ⟨_, exec_rxFill o payload s, ?_⟩
  simp only [exec_rxFill, hrep]

/-! ### Ending a cycle -/

/-- Settles O12: it holds; the two cases of RE.END. -/
theorem endPublishesOnlyExactLength : Obligations.EndPublishesOnlyExactLength := by
  unfold Obligations.EndPublishesOnlyExactLength
  intro s
  rw [exec_reEnd]
  rcases s.re.endCycle_cases with ⟨hseen, hexact, e⟩ | ⟨hn, e⟩ <;> rw [e]
  · exact ⟨fun _ => rfl, fun hn => absurd ⟨hseen, hexact⟩ hn⟩
  · exact ⟨fun h => absurd h hn, fun _ => rfl⟩

/-- Settles O13: it holds; no more than 50 indices are ever filled (I1). -/
theorem declaredLengthAboveCapacityNeverValidates : Obligations.DeclaredLengthAboveCapacityNeverValidates := by
  unfold Obligations.DeclaredLengthAboveCapacityNeverValidates
  intro s hs hlen
  have hfill : s.re.filled_len.toNat ≤ 50 := hs.filled_le
  have hc : complete s.re = false := by
    rw [← Bool.not_eq_true, complete_iff]
    omega
  have hv : validates s.re = false := by
    rw [← Bool.not_eq_true, validates_iff]
    omega
  exact ⟨hc, _, exec_reEnd s, by simpa using hv, by simp [hv], by simp⟩

/-! ### Reading the buffer -/

theorem noData_eq_false_iff (s : State) :
    noData s = false ↔ s.re.re_busy = false ∧ s.re.buf_valid = true := by
  simp [noData]

/-- Settles O14: it holds; RE.RD's three answers in the order of its tests. -/
theorem readByteOfValidatedBuffer : Obligations.ReadByteOfValidatedBuffer := by
  unfold Obligations.ReadByteOfValidatedBuffer
  intro s i
  refine ⟨fun h => exec_reRd_of_noData s i ((noData_iff s).2 h), fun hb hv hi => ?_, fun hb hv hi => ?_⟩
  · exact exec_reRd_of_range s ((noData_eq_false_iff s).2 ⟨hb, hv⟩) hi
  · refine ⟨_, exec_reRd_of_byte s ((noData_eq_false_iff s).2 ⟨hb, hv⟩) (Nat.not_le_of_lt hi), ?_⟩
    exact BitVec.toNat_setWidth_of_le (by decide)

/-- Settles O15: it holds; an index that was never filled keeps the cleared byte (D10). -/
theorem holeReadsZero : Obligations.HoleReadsZero := by
  unfold Obligations.HoleReadsZero
  intro s i h hs hb hv hi hf
  rw [exec_reRd_of_byte s ((noData_eq_false_iff s).2 ⟨hb, hv⟩) (Nat.not_le_of_lt hi),
    hs.unfilled_zero i.toNat h hf]
  rfl

theorem exec_tdDecode_of_noData (s : State) (tag : Byte) (h : noData s = true) :
    exec (.tdDecode tag) s = .next (s.fail .noData) := by
  simp [exec, execTdDecode, h]

/-- The state with another content of the logical buffer. -/
def State.withBuf (s : State) (m : Memory) : State := { s with re := { s.re with buf := m } }

/-- No register of the CSR space shows a byte of the buffer (R47). -/
theorem csrValue_withBuf (s : State) (m : Memory) (r : Csr) : csrValue (s.withBuf m) r = csrValue s r := by
  cases r <;> rfl

theorem csrRd_commutesWith_withBuf (n : Byte) (m : Memory) : CommutesWith (.csrRd n) (·.withBuf m) := by
  intro s
  cases h : csrOf s.cfg.HAS_BCAST n with
  | none => exact ⟨_, exec_csrRd_of_unmapped h, exec_csrRd_of_unmapped h⟩
  | some r =>
    refine ⟨_, exec_csrRd_of_mapped h, (exec_csrRd_of_mapped (s := s.withBuf m) h).trans ?_⟩
    rw [csrValue_withBuf]
    rfl

/-- Settles O16: it holds; without a validated buffer RE.RD and TD.DECODE fail before they read one, and CSR.RD reads
none. -/
theorem discardedBufferIsUnobservable : Obligations.DiscardedBufferIsUnobservable := by
  unfold Obligations.DiscardedBufferIsUnobservable
  intro s m i h hi
  have hn : noData s = true := (noData_iff s).2 h
  have hn' : noData (s.withBuf m) = true := hn
  rcases hi with ⟨x, rfl⟩ | ⟨x, rfl⟩ | ⟨x, rfl⟩
  · exact ⟨_, exec_reRd_of_noData s x hn, exec_reRd_of_noData _ x hn'⟩
  · exact ⟨_, exec_tdDecode_of_noData s x hn, exec_tdDecode_of_noData _ x hn'⟩
  · exact csrRd_commutesWith_withBuf x m s

end Sys2Proof.Machine

/-! SUPPORT. Runs of the sequencer: every turn of a running collection makes one poll or ends it (R122), so that a cycle
ends (R133, R265), and with the right answers it publishes their bytes (R134). -/

namespace Sys2Proof.Machine

open Config

/-! ### One turn -/

/-- Settles O46: it holds; without a command only `re_busy` is looked at. -/
theorem stepWithoutCommand : Obligations.StepWithoutCommand := by
  unfold Obligations.StepWithoutCommand
  intro s p rest hscript hrst hcmd
  constructor <;> intro hb <;> simp [step, State.selected, State.sample_scheduled s p rest hscript, hrst, hcmd, hb]

/-- The step of a busy engine's turn is RE.POLL (R122). -/
theorem step_of_sequencerTurn {s : State} {p : Ports} {rest : List Ports} (hscript : s.script = p :: rest)
    (hp : p.sequencerTurn) (hb : s.re.re_busy = true) :
    step s = exec .rePoll { s with port := p, script := rest } :=
  (stepWithoutCommand s p rest hscript hp.1 hp.2).1 hb

/-- The engine's cycle goes on and has made one more poll, which was within the budget. -/
def PolledOnce (s t : State) : Prop :=
  t.re.re_busy = true ∧ s.re.re_polls < s.cfg.MAX_POLLS ∧ t.re.re_polls = s.re.re_polls + 1

/-- A turn of a running collection ends it or uses one poll of its budget (R122). -/
theorem exec_rePoll_progress {s : State} (hb : s.re.re_busy = true) :
    ∃ t, exec .rePoll s = .next t ∧ t.cfg = s.cfg ∧ t.script = s.script ∧
      (t.re.re_busy = false ∨ PolledOnce s t) := by
  cases hr : boundReached s with
  | true => exact ⟨_, exec_rePoll_of_bound s hb hr, rfl, rfl, .inl s.re.endCycle_re_busy⟩
  | false =>
    refine ⟨_, exec_rePoll_of_turn s hb hr, rfl, rfl, ?_⟩
    cases hend : s.iterate.re.re_busy with
    | false => exact .inl rfl
    | true =>
      have hn := mt (boundReached_iff s).2 (by simp [hr])
      exact .inr ⟨hend, by omega, by simp [State.iterate_eq]⟩

/-! ### A collection ends within its poll budget -/

/-- Settles O50: it holds, by induction on the samples; every turn that does not end the collection takes one from the
polls that are left. -/
theorem collectionEndsWithinPollBudget : Obligations.CollectionEndsWithinPollBudget := by
  unfold Obligations.CollectionEndsWithinPollBudget
  intro s hb hlen hturns
  induction hscript : s.script generalizing s with
  | nil => simp [hscript] at hlen
  | cons p rest ih =>
    rw [hscript, List.length_cons] at hlen
    rw [hscript, List.forall_mem_cons] at hturns
    obtain ⟨hp, hrest⟩ := hturns
    have hstep := step_of_sequencerTurn hscript hp hb
    obtain ⟨t, ht, hcfg, hts, hend | ⟨htb, hlt, hpolls⟩⟩ :=
      exec_rePoll_progress (s := { s with port := p, script := rest }) hb
    · exact ⟨1, by omega, t, (run_succ s t 0 (hstep.trans ht)).trans (run_zero t), hend⟩
    · simp only at hcfg hts hlt hpolls
      obtain ⟨k, hk, u, hu, hidle⟩ :=
        ih t htb (by rw [hcfg, hpolls, hts]; omega) (by rwa [hts]) hts
      rw [hcfg, hpolls] at hk
      exact ⟨k + 1, by omega, u, (run_succ s t k (hstep.trans ht)).trans hu, hidle⟩

/-! ### Weak fairness -/

/-- Only RE.START with a legal selector, RE.POLL and the rows inside it touch a running cycle (R120, R122, R224). -/
theorem exec_keeps_cycle {i : Instr} {s t : State} (hi : hostCommand i = true)
    (hsel : ∀ sel, i = .reStart sel → 2 < sel.toNat) (h : exec i s = .next t) :
    t.re.re_busy = s.re.re_busy ∧ t.re.re_polls = s.re.re_polls := by
  cases i with
  | reStart sel =>
    cases (exec_reStart_of_badSelector s (requestOf_of_lt (hsel sel rfl))).symm.trans h
    exact ⟨rfl, rfl⟩
  | csrWr n v =>
    rcases execCsrWr_cases n v s with ⟨c, -, e⟩ | ⟨r, u, -, hu, e⟩ <;> cases e.symm.trans h
    · exact ⟨rfl, rfl⟩
    · rw [csrStore_frame s v r u hu]
      exact ⟨rfl, rfl⟩
  | reRd | tdDecode | tdBcast | asInit | asTick | nop | csrRd =>
    have hf := exec_frame h
    rw [hf]
    exact ⟨rfl, rfl⟩
  | txReq | txReqRt | txReqBal | rePoll | rxNone | rxFill | rxHdr | rxIgn | reEnd | msgRt | msgBal =>
    cases hi

/-- What one operation can do to a running cycle: abandon it, end it, make one of its polls on the sequencer's turn, or
leave it alone (R120, R122, R225, R250). -/
theorem step_of_busy {s t : State} {p : Ports} {rest : List Ports} (hb : s.re.re_busy = true)
    (h : step { s with script := p :: rest } = .next t) :
    p.startsCycle s.cfg ∨ t.re.re_busy = false ∨
      (t.cfg = s.cfg ∧ ((p.sequencerTurn ∧ PolledOnce s t) ∨
        (¬p.sequencerTurn ∧ t.re.re_busy = s.re.re_busy ∧ t.re.re_polls = s.re.re_polls))) := by
  have hcases := step_cases { s with script := p :: rest }
  rw [State.sample_scheduled _ p rest rfl] at hcases
  rcases hcases with ⟨-, e⟩ | ⟨w, i, hrst, hw, hd, e⟩ | ⟨w, r, -, hw, -, e⟩ |
    ⟨hrst, hw, -, e⟩ | ⟨-, -, hidle, -⟩
  · cases e.symm.trans h
    exact .inr (.inl rfl)
  · by_cases hstart : p.startsCycle s.cfg
    · exact .inl hstart
    · have hexec := e.symm.trans h
      have hkeeps := exec_keeps_cycle (hostCommand_of_decodeCommand hd)
        (fun sel hsel => Nat.lt_of_not_le fun hle => hstart ⟨hrst, w, sel, hw, hsel ▸ hd, hle⟩) hexec
      exact .inr (.inr ⟨(exec_frame hexec).inputs.1, .inr ⟨fun hp => by simp [hp.2] at hw, hkeeps⟩⟩)
  · cases e.symm.trans h
    exact .inr (.inr ⟨rfl, .inr ⟨fun hp => by simp [hp.2] at hw, rfl, rfl⟩⟩)
  · obtain ⟨u, hu, hcfg, -, hend⟩ :=
      exec_rePoll_progress (s := { s with port := p, script := rest }) hb
    cases (e.trans hu).symm.trans h
    exact .inr (hend.imp_right fun hpoll => ⟨hcfg, .inl ⟨⟨hrst, hw⟩, hpoll⟩⟩)
  · simp [hb] at hidle

/-- The cycle that runs in `s₀` still runs in `s`, `n` polls later. -/
structure Continues (s₀ s : State) (n : Nat) : Prop where
  cfg : s.cfg = s₀.cfg
  busy : s.re.re_busy = true
  polls : s.re.re_polls = s₀.re.re_polls + n
  budget : n ≤ s₀.cfg.MAX_POLLS - s₀.re.re_polls

theorem Continues.step {s₀ s t : State} {n : Nat} {p : Ports} {rest : List Ports} (hc : Continues s₀ s n)
    (h : step { s with script := p :: rest } = .next t) (hstart : ¬p.startsCycle s.cfg)
    (hb : t.re.re_busy = true) : Continues s₀ t (n + if p.sequencerTurn then 1 else 0) := by
  obtain ⟨hcfg, hsb, hpolls, hbudget⟩ := hc
  rcases step_of_busy hsb h with hs | hidle | ⟨htc, ⟨hp, -, hlt, hone⟩ | ⟨hp, -, hsame⟩⟩
  · exact absurd hs hstart
  · simp [hb] at hidle
  · rw [if_pos hp]
    rw [hcfg] at hlt
    exact ⟨htc.trans hcfg, hb, by omega, by omega⟩
  · rw [if_neg hp]
    exact ⟨htc.trans hcfg, hb, hsame.trans hpolls, hbudget⟩

theorem turnsBefore_mono (env : Nat → Ports) : Monotone (turnsBefore env) :=
  monotone_nat_of_le_succ fun k => by
    rw [turnsBefore_succ]
    exact Nat.le_add_right _ _

/-- A sequencer whose step stays enabled gets any number of turns (R265). -/
theorem turnsBefore_unbounded {env : Nat → Ports} {run : Nat → State} (hfair : SequencerFair env run)
    (hbusy : ∀ k, (run k).re.re_busy = true) (m : Nat) : ∃ k, m ≤ turnsBefore env k := by
  induction m with
  | zero => exact ⟨0, Nat.zero_le _⟩
  | succ m ih =>
    obtain ⟨k, hk⟩ := ih
    obtain ⟨j, hkj, hturn⟩ := hfair k fun j _ => hbusy j
    have hmono := turnsBefore_mono env hkj
    refine ⟨j + 1, ?_⟩
    rw [turnsBefore_succ, if_pos hturn]
    omega

/-- Settles O56: it holds. A cycle that neither ended nor was abandoned within its budget of turns would go on for ever
with one poll a turn, and fairness gives it more turns than it has polls. -/
theorem cycleEndsUnderWeakFairness : Obligations.CycleEndsUnderWeakFairness := by
  unfold Obligations.CycleEndsUnderWeakFairness
  intro env run hrun hfair hb
  by_contra! hall
  have hcont : ∀ k, Continues (run 0) (run k) (turnsBefore env k) := by
    intro k
    induction k with
    | zero => exact ⟨rfl, hb, rfl, Nat.zero_le _⟩
    | succ k ih =>
      have hbudget := ih.budget
      have hnext := turnsBefore_succ env k
      have hstart := (hall k (by omega)).2
      have hbusy := (hall (k + 1) (by split at hnext <;> omega)).1
      exact hnext ▸ ih.step (hrun k) hstart (by simpa using hbusy)
  obtain ⟨k, hk⟩ := turnsBefore_unbounded hfair (fun k => (hcont k).busy)
    ((run 0).cfg.MAX_POLLS - (run 0).re.re_polls + 1)
  have hbudget := (hcont k).budget
  omega

end Sys2Proof.Machine

/-! SUPPORT. A cycle whose answers deliver `n` bytes, in any order, publishes exactly them (R134 P-a): what each answer
adds to the engine, and why the last one that is needed completes it. -/

namespace Sys2Proof

/-- An answer is a fill fragment that aims at an index. -/
def Answer.Covers (a : Answer) (i : Nat) : Prop :=
  ∃ o payload, a = .fill o payload ∧ o.toNat ≤ i ∧ i < o.toNat + payload.length

/-- An answer is a header frame. -/
def Answer.IsHeader (a : Answer) : Prop := ∃ b0 b1 len rest, a = .header b0 b1 len rest

/-- An answer says nothing but `n` and the bytes `data`: what a fragment carries, and what a header declares. -/
def Answer.Agrees (n : Nat) (data : Nat → Byte) : Answer → Prop
  | .fill o payload => ∀ (k : Nat) (h : k < payload.length),
      o.toNat + k < n ∧ payload[k] = data (o.toNat + k)
  | .header _ _ len _ => len.toNat = n
  | .noFrame => True
  | .ignored _ => True

end Sys2Proof

namespace Sys2Proof.Machine

open Config

/-! ### What an answer adds -/

/-- An answer marks what it covers, and removes no mark. -/
theorem ReState.accept_filled (re : ReState) (a : Answer) (i : Nat) (hi : i < 50) :
    (re.accept a).filled[i] = true ↔ re.filled[i] = true ∨ a.Covers i := by
  cases a with
  | fill o payload =>
    have h := re.storeBytes_filled o.toNat payload i hi
    simp only [ReState.accept, ReState.fill, h, Answer.Covers, Bool.or_eq_true, decide_eq_true_eq]
    constructor
    · exact Or.imp_right fun hc => ⟨o, payload, rfl, hc⟩
    · exact Or.imp_right fun ⟨_, _, e, hc⟩ => by cases e; exact hc
  | noFrame | header | ignored => simp [ReState.accept, Answer.Covers]

theorem ReState.accept_hdr_seen (re : ReState) (a : Answer) :
    (re.accept a).hdr_seen = true ↔ re.hdr_seen = true ∨ a.IsHeader := by
  cases a <;> simp [ReState.accept, ReState.fill, Answer.IsHeader]

/-! ### A collection of `n` bytes under way -/

/-- What the engine has taken agrees with `n` and `data`. -/
structure ReState.Holds (re : ReState) (n : Nat) (data : Nat → Byte) : Prop where
  fill : re.FillOk
  bytes : ∀ (i : Nat) (hi : i < 50), re.filled[i] = true → i < n ∧ re.buf.read i = data i
  declared : re.hdr_seen = true → re.exp_len.toNat = n

theorem ReState.Holds.accept {re : ReState} {n : Nat} {data : Nat → Byte} (h : re.Holds n data) {a : Answer}
    (ha : a.Agrees n data) : (re.accept a).Holds n data := by
  obtain ⟨hfill, hbytes, hdecl⟩ := h
  cases a with
  | noFrame => exact ⟨hfill, hbytes, hdecl⟩
  | ignored f => exact ⟨hfill, hbytes, hdecl⟩
  | header b0 b1 len rest => exact ⟨hfill.accept _, hbytes, fun _ => ha⟩
  | fill o payload =>
    refine ⟨hfill.accept _, fun i hi hf => ?_, by simpa [ReState.accept, ReState.fill] using hdecl⟩
    have hread := re.storeBytes_read o.toNat payload i
    by_cases hin : o.toNat ≤ i ∧ i < o.toNat + payload.length
    · obtain ⟨hlt, hv⟩ := ha (i - o.toNat) (by omega)
      rw [Nat.add_sub_cancel' hin.1] at hlt hv
      exact ⟨hlt, (hread.trans (dif_pos ⟨hin.1, hin.2, hi⟩)).trans hv⟩
    · have hold : re.filled[i] = true := by
        refine ((re.accept_filled _ i hi).1 hf).resolve_right ?_
        rintro ⟨_, _, e, hc⟩
        cases e
        exact hin hc
      obtain ⟨hlt, hv⟩ := hbytes i hi hold
      exact ⟨hlt, (hread.trans (dif_neg fun hc => hin ⟨hc.1, hc.2.1⟩)).trans hv⟩

/-- A complete collection that agrees with `n` and `data` validates, and holds all of `data` (R129, R130). -/
theorem ReState.Holds.published {re : ReState} {n : Nat} {data : Nat → Byte} (h : re.Holds n data)
    (hn : n ≤ 50) (hc : complete re = true) :
    re.endCycle.buf_valid = true ∧ re.endCycle.buf_len.toNat = n ∧
      ∀ i < n, re.endCycle.buf.read i = data i := by
  obtain ⟨hseen, hle⟩ := (complete_iff re).1 hc
  have hexp := h.declared hseen
  have hcount := h.fill.filled_count
  obtain ⟨hmax, hall⟩ := count_below re.filled n hn fun i hi hf => (h.bytes i hi hf).1
  have hv : validates re = true := (validates_iff re).2 ⟨hseen, by omega⟩
  refine ⟨by simpa using hv, by simp [hv]; omega, fun i hi => ?_⟩
  rw [ReState.endCycle_buf]
  exact (h.bytes i (by omega) (hall (by omega) i (by omega) hi)).2

/-- Every byte and a header have been taken, or come among the answers `todo`, which agree with `n` and `data`. -/
structure ReState.Awaits (re : ReState) (n : Nat) (data : Nat → Byte) (todo : List Answer) : Prop where
  agree : ∀ a ∈ todo, a.Agrees n data
  covers : ∀ (i : Nat) (hi : i < 50), i < n → re.filled[i] = true ∨ ∃ a ∈ todo, a.Covers i
  header : re.hdr_seen = true ∨ ∃ a ∈ todo, a.IsHeader

theorem ReState.Awaits.accept {re : ReState} {n : Nat} {data : Nat → Byte} {a : Answer} {todo : List Answer}
    (h : re.Awaits n data (a :: todo)) : (re.accept a).Awaits n data todo where
  agree b hb := h.agree b (List.mem_cons_of_mem a hb)
  covers i hi hin := by
    have hc := h.covers i hi hin
    rwa [List.exists_mem_cons_iff, ← or_assoc, ← re.accept_filled a i hi] at hc
  header := by
    have hh := h.header
    rwa [List.exists_mem_cons_iff, ← or_assoc, ← re.accept_hdr_seen] at hh

/-- A collection that awaits no more answers is complete. -/
theorem ReState.Holds.complete_of_awaits_nil {re : ReState} {n : Nat} {data : Nat → Byte} (h : re.Holds n data)
    (hn : n ≤ 50) (ha : re.Awaits n data []) : complete re = true := by
  have hseen : re.hdr_seen = true := by simpa using ha.header
  have hcount : re.filled.count true = n := count_of_prefix re.filled n hn fun i hi => by
    rw [Bool.eq_iff_iff, decide_eq_true_eq]
    exact ⟨fun hf => (h.bytes i hi hf).1, fun hin => by simpa using ha.covers i hi hin⟩
  refine (complete_iff re).2 ⟨hseen, ?_⟩
  rw [h.declared hseen, h.fill.filled_count, hcount]

/-- A fresh cycle has taken nothing. -/
theorem ReState.Holds.of_fresh {re : ReState} (n : Nat) (data : Nat → Byte) (hfill : re.FillOk)
    (hlen : re.filled_len = 0) (hseen : re.hdr_seen = false) : re.Holds n data := by
  have hnone : re.filled.count true = 0 := by rw [← hfill.filled_count, hlen]; rfl
  refine ⟨hfill, fun i hi hf => ?_, fun h => by simp [hseen] at h⟩
  exact absurd (hf ▸ Vector.getElem_mem hi) (Vector.count_eq_zero.1 hnone)

/-- The answers of R134 P-a, by their classes. -/
theorem Delivers.awaits {p : Params} {as : List (Option Frame)} {n : Nat} {data : Nat → Byte}
    (h : Delivers p as n data) (re : ReState) : re.Awaits n data (as.map (classify p)) where
  agree := by
    rw [List.forall_mem_map]
    intro f hf
    cases hc : classify p f with
    | noFrame => trivial
    | fill o payload => exact h.fills f hf o payload hc
    | header b0 b1 len rest => exact h.headers f hf b0 b1 len rest hc
    | ignored g => trivial
  covers i _ hin := by
    obtain ⟨f, hf, hc⟩ := h.covers i hin
    exact .inr ⟨_, List.mem_map_of_mem hf, hc⟩
  header := by
    obtain ⟨f, hf, hc⟩ := h.header
    exact .inr ⟨_, List.mem_map_of_mem hf, hc⟩

/-! ### The run -/

/-- One answer as a poll takes it: counted, then its class's effect (R122). -/
def ReState.take (re : ReState) (a : Answer) : ReState :=
  ReState.accept { re with re_polls := re.re_polls + 1 } a

theorem ReState.Holds.take {re : ReState} {n : Nat} {data : Nat → Byte} (h : re.Holds n data) {a : Answer}
    (ha : a.Agrees n data) : (re.take a).Holds n data :=
  have hcounted : ReState.Holds { re with re_polls := re.re_polls + 1 } n data :=
    ⟨h.fill.of_eq rfl rfl rfl, h.bytes, h.declared⟩
  hcounted.accept ha

theorem ReState.Awaits.take {re : ReState} {n : Nat} {data : Nat → Byte} {a : Answer} {todo : List Answer}
    (h : re.Awaits n data (a :: todo)) : (re.take a).Awaits n data todo :=
  have hcounted : ReState.Awaits { re with re_polls := re.re_polls + 1 } n data (a :: todo) :=
    ⟨h.agree, h.covers, h.header⟩
  hcounted.accept

@[simp] theorem ReState.take_re_busy (re : ReState) (a : Answer) : (re.take a).re_busy = re.re_busy := by
  simp [ReState.take]

@[simp] theorem ReState.take_re_t0 (re : ReState) (a : Answer) : (re.take a).re_t0 = re.re_t0 := by
  simp [ReState.take]

@[simp] theorem ReState.take_re_polls (re : ReState) (a : Answer) :
    (re.take a).re_polls = re.re_polls + 1 := by
  simp [ReState.take]

/-- A turn within both bounds takes the next scheduled answer (R122). -/
theorem step_of_turn_within {s : State} {p : Ports} {rest : List Ports} {x : RxPort} {xs : List RxPort}
    (hscript : s.script = p :: rest) (hp : p.sequencerTurn) (hb : s.re.re_busy = true)
    (hans : s.rxAnswers = x :: xs) (hpolls : s.re.re_polls < s.cfg.MAX_POLLS)
    (htime : elapsed p.now_ms s.re.re_t0 < s.cfg.WINDOW_MS) :
    ∃ t, step s = .next t ∧ t.cfg = s.cfg ∧ t.script = rest ∧ t.rxAnswers = xs ∧
      t.re = (s.re.take (classify s.cfg x.frame)).earlyExit := by
  have hr : boundReached { s with port := p, script := rest } = false := by
    rw [← Bool.not_eq_true, boundReached_iff]
    exact not_or.2 ⟨Nat.not_le_of_lt hpolls, Nat.not_le_of_lt htime⟩
  refine ⟨_, (step_of_sequencerTurn hscript hp hb).trans (exec_rePoll_of_turn _ hb hr), rfl, rfl,
    congrArg List.tail hans, ?_⟩
  simp only [State.iterate_eq, State.nextAnswer, State.nextRx, hans, ReState.take]

/-- While a byte or the header is missing, one of the answers to come brings it, and the bounds leave a turn for it. -/
theorem run_of_awaits {s : State} {as later : List (Option Frame)} {n : Nat} {data : Nat → Byte} (hn : n ≤ 50)
    (hb : s.re.re_busy = true) (hholds : s.re.Holds n data)
    (hwait : s.re.Awaits n data (as.map (classify s.cfg))) (hinc : complete s.re = false)
    (hans : s.rxAnswers.map RxPort.frame = as ++ later)
    (hpolls : s.re.re_polls + as.length ≤ s.cfg.MAX_POLLS) (hlen : as.length ≤ s.script.length)
    (hturns : ∀ p ∈ s.script, p.sequencerTurn ∧ elapsed p.now_ms s.re.re_t0 < s.cfg.WINDOW_MS) :
    ∃ k, k ≤ as.length ∧ ∃ t, core.run k s = .next t ∧ t.re.re_busy = false ∧
      t.re.buf_valid = true ∧ t.re.buf_len.toNat = n ∧ ∀ i < n, t.re.buf.read i = data i := by
  induction as generalizing s with
  | nil => simp [hholds.complete_of_awaits_nil hn hwait] at hinc
  | cons a as ih =>
    obtain ⟨p, rest, hscript⟩ := List.exists_cons_of_length_pos (Nat.lt_of_lt_of_le (Nat.succ_pos _) hlen)
    obtain ⟨x, xs, hx, rfl, hxs⟩ := List.map_eq_cons_iff.1 hans
    rw [hscript] at hlen hturns
    rw [List.forall_mem_cons] at hturns
    obtain ⟨⟨hp, htime⟩, hrest⟩ := hturns
    rw [List.length_cons] at hpolls hlen
    obtain ⟨t, hstep, hcfg, hts, htx, hre⟩ := step_of_turn_within hscript hp hb hx (by omega) htime
    have hholds' := hholds.take (hwait.agree _ List.mem_cons_self)
    have hwait' := hwait.take
    cases hc : complete (s.re.take (classify s.cfg x.frame)) with
    | true =>
      rw [ReState.earlyExit_of_complete hc] at hre
      refine ⟨1, by simp, t, (run_succ s t 0 hstep).trans (run_zero t), ?_⟩
      rw [hre]
      exact ⟨ReState.endCycle_re_busy _, hholds'.published hn hc⟩
    | false =>
      rw [ReState.earlyExit_of_incomplete hc] at hre
      rw [← hre] at hc hholds' hwait'
      obtain ⟨k, hk, u, hu, hend⟩ := ih (s := t) (by simpa [hre] using hb) hholds' (by rwa [hcfg]) hc
        (by rwa [htx]) (by simp [hre, hcfg]; omega) (by simpa [hts] using hlen)
        (by simpa [hts, hre, hcfg] using hrest)
      exact ⟨k + 1, by simpa using hk, u, (run_succ s t k hstep).trans hu, hend⟩

/-- Settles O51: it holds, by induction on the answers; each is taken into the collection, and the one that leaves
nothing missing completes it. -/
theorem coveringFragmentsValidateInAnyOrder : Obligations.CoveringFragmentsValidateInAnyOrder := by
  unfold Obligations.CoveringFragmentsValidateInAnyOrder
  intro s as later n data hs hb hfilled hseen hpolls hn hdel hans hmax hlen hturns
  have hinc : complete s.re = false := by simp [complete, hseen]
  exact run_of_awaits hn hb (.of_fresh n data hs.re_ok.fill hfilled hseen) (hdel.awaits s.re) hinc hans
    (by omega) hlen hturns

end Sys2Proof.Machine

/-! SUPPORT. The telemetry decoder one operation at a time: TD.DECODE by the shape of the validated buffer (R150), the
fields of the shapes and of a broadcast (R151 to R155), and the valid bits, which only reset clears (R156). -/

namespace Sys2Proof.Machine

open Config

/-! ### Decoding against an expected tag -/

theorem shapeOf_eq_realtime {p : Params} {tag : Byte} {n : BitVec 6} (ht : tag.toNat = 0x32)
    (hn : n.toNat = 18) : shapeOf p tag n = some .realtime := by
  have ht' : tag = TAG_RT := BitVec.eq_of_toNat_eq ht
  have hn' : n = LEN_RT := BitVec.eq_of_toNat_eq hn
  simp [shapeOf, ht', hn']

theorem shapeOf_eq_balance {p : Params} (hp : p.ok) {n : BitVec 6} (hn : n.toNat = 37) :
    shapeOf p p.TAG_BAL n = some .balance := by
  have hn' : n = LEN_BAL := BitVec.eq_of_toNat_eq hn
  rw [hn', shapeOf_balance hp]

/-- A tag and a length that are neither shape's are no shape (R99, R150). -/
theorem shapeOf_eq_none {p : Params} {tag : Byte} {n : BitVec 6}
    (hrt : ¬(n.toNat = 18 ∧ tag.toNat = 0x32)) (hbal : ¬(n.toNat = 37 ∧ tag = p.TAG_BAL)) :
    shapeOf p tag n = none := by
  rw [shapeOf]
  split
  · next ht => exact if_neg fun hn => hrt ⟨by rw [hn]; rfl, by rw [ht]; rfl⟩
  · split
    · next ht => exact if_neg fun hn => hbal ⟨by rw [hn]; rfl, ht⟩
    · rfl

/-- No shape is empty, so R150's test for a tag byte never rejects a shape. -/
theorem ne_zero_of_shapeOf {p : Params} {tag : Byte} {n : BitVec 6} {m : Shape}
    (h : shapeOf p tag n = some m) : n ≠ 0 := by
  rintro rfl
  rw [shapeOf_eq_none (by simp) (by simp)] at h
  cases h

theorem exec_tdDecode_of_shape {s : State} {tag : Byte} {m : Shape} (hn : noData s = false)
    (htag : s.re.buf.read 0 = tag) (hm : shapeOf s.cfg tag s.re.buf_len = some m) :
    exec (.tdDecode tag) s = .next ({ s with td := s.td.take s.re.buf m }.respond .ok 0) := by
  rw [exec, execTdDecode, if_neg (by simp [hn]), if_neg (ne_zero_of_shapeOf hm), if_neg (not_not.2 htag), hm]

theorem exec_tdDecode_of_noShape {s : State} {tag : Byte} (hn : noData s = false)
    (hm : s.re.buf.read 0 = tag → shapeOf s.cfg tag s.re.buf_len = none) :
    exec (.tdDecode tag) s = .next (s.fail .decode) := by
  by_cases htag : s.re.buf.read 0 = tag
  · simp [exec, execTdDecode, hn, hm htag]
  · simp [exec, execTdDecode, hn, htag]

/-- Settles O17: it holds; a validated buffer with the expected tag has one of the two shapes or none. -/
theorem decodeAgainstExpectedTag : Obligations.DecodeAgainstExpectedTag := by
  unfold Obligations.DecodeAgainstExpectedTag
  intro s tag hp
  refine ⟨fun h => exec_tdDecode_of_noData s tag ((noData_iff s).2 h), fun hb hv ⟨hrt, hbal⟩ => ?_,
    fun hb hv hlen htag hrt => ?_, fun hb hv hlen htag hbal => ?_⟩
  · exact exec_tdDecode_of_noShape ((noData_eq_false_iff s).2 ⟨hb, hv⟩) fun htag =>
      shapeOf_eq_none (fun ⟨hlen, ht⟩ => hrt ⟨hlen, htag, ht⟩) (fun ⟨hlen, ht⟩ => hbal ⟨hlen, htag, ht⟩)
  · exact ⟨_, rfl, exec_tdDecode_of_shape ((noData_eq_false_iff s).2 ⟨hb, hv⟩) htag
      (shapeOf_eq_realtime hrt hlen)⟩
  · subst hbal
    exact ⟨_, rfl, exec_tdDecode_of_shape ((noData_eq_false_iff s).2 ⟨hb, hv⟩) htag
      (shapeOf_eq_balance hp hlen)⟩

/-! ### The fields of a shape -/

theorem s16_read16 (m : Memory) (i : Nat) : s16 (m.read16 i) = signed 16 (field16 m i) := by
  rw [s16_signed, Memory.read16_toNat]

theorem s32_read32 (m : Memory) (i : Nat) : s32 (m.read32 i) = signed 32 (field32 m i) := by
  rw [s32_signed, Memory.read32_toNat]

/-- Settles O18: it holds; each field is the buffer's big-endian field at its index. -/
theorem realtimeShapeFields : Obligations.RealtimeShapeFields := by
  unfold Obligations.RealtimeShapeFields
  intro s
  exact ⟨_, rfl, s16_read16 _ 9, s32_read32 _ 11, s16_read16 _ 15, rfl⟩

/-- Settles O19: it holds; each field is the buffer's big-endian field at its index. -/
theorem balanceShapeFields : Obligations.BalanceShapeFields := by
  unfold Obligations.BalanceShapeFields
  intro s
  exact ⟨_, rfl, Memory.read16_toNat _ 25, s32_read32 _ 29, s32_read32 _ 33, rfl⟩

theorem TdState.takeRealtime_dutyCycle (td : TdState) (buf : Memory) :
    (td.takeRealtime buf).dutyCycle = (signed 16 (field16 buf 9) : Rat) / 1000 := by
  rw [← s16_read16]
  rfl

theorem TdState.takeRealtime_erpm (td : TdState) (buf : Memory) :
    (td.takeRealtime buf).erpm = signed 32 (field32 buf 11) := s32_read32 buf 11

theorem TdState.takeRealtime_voltage (td : TdState) (buf : Memory) :
    (td.takeRealtime buf).voltage = (signed 16 (field16 buf 15) : Rat) / 10 := by
  rw [← s16_read16]
  rfl

/-- Settles O20: it holds; the tag and the length select the realtime shape, whose raw fields are 800, 0 and 500. -/
theorem workedRealtimeExample : Obligations.WorkedRealtimeExample := by
  unfold Obligations.WorkedRealtimeExample
  intro s hb hv hlen htag hduty herpm hvolt
  refine ⟨_, exec_tdDecode_of_shape ((noData_eq_false_iff s).2 ⟨hb, hv⟩) htag
    (shapeOf_eq_realtime rfl hlen), (s.td.takeRealtime_dutyCycle _).trans ?_,
    (s.td.takeRealtime_erpm _).trans ?_, (s.td.takeRealtime_voltage _).trans ?_, rfl, rfl⟩
  · norm_num [hduty, signed]
  · norm_num [herpm, signed]
  · norm_num [hvolt, signed]

/-! ### A broadcast -/

/-- Two neighbouring bytes of a port are its 16 bits there (R62). -/
theorem be16_byteOf_toNat (d : Dword) {k : Nat} (hk : k ≤ 6) :
    (be16 (byteOf d k) (byteOf d (k + 1))).toNat = d.toNat / 2 ^ (48 - 8 * k) % 2 ^ 16 := by
  have hhigh : 56 - 8 * k = 48 - 8 * k + 8 := by omega
  have hlow : 56 - 8 * (k + 1) = 48 - 8 * k := by omega
  rw [be16_toNat, byteOf_toNat, byteOf_toNat, hlow, hhigh, pow_add, ← Nat.div_div_eq_div_mul]
  omega

theorem presence_iff (thr c0 c1 : Half) :
    presence thr c0 c1 = true ↔ (thr.toNat : Int) < s16 c0 ∨ (thr.toNat : Int) < s16 c1 := by
  simp [presence]

theorem exec_tdBcast_of_absent {s : State} (n : Byte) (d : Dword) (h : s.cfg.HAS_BCAST = false) :
    exec (.tdBcast n d) s = .next (s.fail .badOp) := by
  simp [exec, execTdBcast, h]

theorem exec_tdBcast_of_badLength {s : State} {n : Byte} (d : Dword) (h : s.cfg.HAS_BCAST = true)
    (hn : n.toNat ≠ 8) : exec (.tdBcast n d) s = .next (s.fail .decode) := by
  have hn' : n ≠ LEN_BC := fun e => hn (by rw [e]; rfl)
  rw [exec, execTdBcast, if_neg (by simp [h]), if_pos hn']

theorem exec_tdBcast_of_payload {s : State} {n : Byte} (d : Dword) (h : s.cfg.HAS_BCAST = true)
    (hn : n.toNat = 8) :
    exec (.tdBcast n d) s = .next ({ s with td := s.td.takeBroadcast d }.respond .ok 0) := by
  have hn' : n = LEN_BC := BitVec.eq_of_toNat_eq hn
  simp [exec, execTdBcast, h, hn']

/-- Settles O21: it holds; channel `k` is the 16 bits of its two bytes, and the presence flag is that of the new
channels. -/
theorem broadcastDecode : Obligations.BroadcastDecode := by
  unfold Obligations.BroadcastDecode
  intro s n d
  refine ⟨exec_tdBcast_of_absent n d, exec_tdBcast_of_badLength d, fun h hn => ?_⟩
  have hch0 : d.toNat / 2 ^ 48 % 2 ^ 16 = d.toNat / 2 ^ 48 := Nat.mod_eq_of_lt (by omega)
  refine ⟨_, exec_tdBcast_of_payload d h hn, (be16_byteOf_toNat d (k := 0) (by decide)).trans hch0,
    be16_byteOf_toNat d (k := 2) (by decide), be16_byteOf_toNat d (k := 4) (by decide),
    (be16_byteOf_toNat d (k := 6) (by decide)).trans (by simp), presence_iff _ _ _, rfl⟩

/-! ### Raw comparisons and the document's reals -/

/-- Scaling by a positive constant keeps a strict comparison of integers (R153). -/
theorem intCast_div_lt_div_iff (a b : Int) {c : Nat} (hc : 0 < c) :
    (a : Rat) / (c : Rat) < (b : Rat) / (c : Rat) ↔ a < b := by
  rw [div_lt_div_iff_of_pos_right (by exact_mod_cast hc), Int.cast_lt]

theorem dutyThreshold_lt_iff (td : TdState) (sch : AsState) :
    sch.dutyThreshold < |td.dutyCycle| ↔ sch.CFG_DUTY_THR.toNat < (s16 td.snap_duty).natAbs := by
  rw [AsState.dutyThreshold, TdState.dutyCycle, abs_div, Nat.abs_cast, ← Int.cast_abs,
    ← Int.cast_natCast sch.CFG_DUTY_THR.toNat, intCast_div_lt_div_iff _ _ (by decide),
    Int.abs_eq_natAbs, Int.ofNat_lt]

theorem voltage_lt_iff (td : TdState) (sch : AsState) :
    td.voltage < sch.voltThreshold ↔ s16 td.snap_volt < (sch.CFG_VOLT_THR.toNat : Int) :=
  intCast_div_lt_div_iff (s16 td.snap_volt) sch.CFG_VOLT_THR.toNat (c := VOLT_SCALE) (by decide)

/-- Settles O22: it holds; both sides of each comparison have the same positive scale. -/
theorem rawComparisonsAreExact : Obligations.RawComparisonsAreExact := by
  unfold Obligations.RawComparisonsAreExact
  intro td sch
  rw [dutyThreshold_lt_iff, voltage_lt_iff]
  constructor
  · simp [dutyExceeds, and_assoc]
  · simp [voltBelow, and_assoc]

/-! ### The valid bits -/

/-- Every valid bit set in one snapshot is set in the other (R156). -/
structure TdState.KeepsValid (td td' : TdState) : Prop where
  rt : td.snap_rt_valid = true → td'.snap_rt_valid = true
  bal : td.snap_bal_valid = true → td'.snap_bal_valid = true
  bc : td.bc_valid = true → td'.bc_valid = true

theorem TdState.KeepsValid.refl (td : TdState) : td.KeepsValid td := ⟨id, id, id⟩

theorem TdState.keepsValid_take (td : TdState) (buf : Memory) (m : Shape) :
    td.KeepsValid (td.take buf m) := by
  cases m with
  | realtime => exact ⟨fun _ => rfl, id, id⟩
  | balance => exact ⟨id, fun _ => rfl, id⟩

theorem TdState.keepsValid_takeBroadcast (td : TdState) (d : Dword) :
    td.KeepsValid (td.takeBroadcast d) := ⟨id, id, fun _ => rfl⟩

theorem execTdDecode_keepsValid {tag : Byte} {s t : State} (h : execTdDecode tag s = .next t) :
    s.td.KeepsValid t.td := by
  rcases execTdDecode_cases tag s with ⟨c, -, e⟩ | ⟨m, -, -, e⟩ <;> cases e.symm.trans h
  · exact .refl _
  · exact TdState.keepsValid_take _ _ m

theorem execTdBcast_keepsValid {n : Byte} {d : Dword} {s t : State} (h : execTdBcast n d s = .next t) :
    s.td.KeepsValid t.td := by
  rcases execTdBcast_cases n d s with ⟨c, -, e⟩ | ⟨-, -, e⟩ <;> cases e.symm.trans h
  · exact .refl _
  · exact TdState.keepsValid_takeBroadcast _ d

/-- Of the snapshot's group CSR.WR writes the threshold alone (R47). -/
theorem execCsrWr_keepsValid {n : Byte} {v : Dword} {s t : State} (h : execCsrWr n v s = .next t) :
    s.td.KeepsValid t.td := by
  rcases execCsrWr_cases n v s with ⟨c, -, e⟩ | ⟨r, u, -, hu, e⟩ <;> cases e.symm.trans h
  · exact .refl _
  · rw [csrStore_frame s v r u hu]
    exact ⟨id, id, id⟩

/-- No operation clears a valid bit: each of the snapshot's writers sets one or none. -/
theorem exec_keepsValid {i : Instr} {s t : State} (h : exec i s = .next t) : s.td.KeepsValid t.td := by
  by_cases ht : t.td = s.td
  · rw [ht]
    exact .refl _
  · rcases (exec_frame h).td ht with hw | hw
    · rcases (writes_eq_snapshot_iff i).1 hw with ⟨x, rfl⟩ | rfl | rfl | ⟨n, d, rfl⟩
      · exact execTdDecode_keepsValid h
      · cases h
        exact TdState.keepsValid_take s.td s.re.buf .realtime
      · cases h
        exact TdState.keepsValid_take s.td s.re.buf .balance
      · exact execTdBcast_keepsValid h
    · obtain ⟨n, v, rfl⟩ := (writes_eq_config_iff i).1 hw
      exact execCsrWr_keepsValid h

/-- Settles O41: it holds; without reset a step runs an operation on the sampled ports, or none. -/
theorem validBitsClearedOnlyByReset : Obligations.ValidBitsClearedOnlyByReset := by
  unfold Obligations.ValidBitsClearedOnlyByReset
  intro s t h hrst
  have hkeep : s.sample.td.KeepsValid t.td := by
    rcases step_cases s with ⟨hr, -⟩ | ⟨w, i, -, -, -, e⟩ | ⟨w, r, -, -, -, e⟩ | ⟨-, -, -, e⟩ | ⟨-, -, -, e⟩
    · simp [hrst] at hr
    · exact exec_keepsValid (e.symm.trans h)
    · cases e.symm.trans h
      exact .refl _
    · exact exec_keepsValid (e.symm.trans h)
    · cases e.symm.trans h
      exact .refl _
  rw [State.sample_td] at hkeep
  exact ⟨hkeep.rt, hkeep.bal, hkeep.bc⟩

end Sys2Proof.Machine

/-! SUPPORT. The alert scheduler: the tests of its conditions (R174 to R177), one tick as what its steps decide (R171 to
R175), and which operations queue a chime (R170, R181). -/

namespace Sys2Proof.Machine

/-! ### Admission and cooldown -/

theorem admits_iff (c p : Priority) : admits c p = true ↔ p.code = 0 ∨ c.code.toNat ≤ p.code.toNat := by
  simp [admits]

/-- The duty-cycle alert has the lowest code after None's, so no priority blocks it (R176). -/
@[simp] theorem admits_dutyCycle (p : Priority) : admits .dutyCycle p = true := by cases p <;> rfl

theorem admits_lowVoltage_iff (p : Priority) : admits .lowVoltage p = true ↔ p ≠ .dutyCycle := by
  cases p <;> decide

/-- Settles O25: it holds; the formula on the codes, and its two rows for the alerts a tick can raise. -/
theorem admissionTable : Obligations.AdmissionTable := by
  unfold Obligations.AdmissionTable
  exact fun p => ⟨admits_dutyCycle p, admits_lowVoltage_iff p, fun c => admits_iff c p⟩

theorem cooldownOk_iff (fired : Bool) (last cd now : Time) :
    cooldownOk fired last cd now = true ↔ fired = false ∨ cd.toNat ≤ elapsed now last := by
  simp [cooldownOk, tdiff_elapsed]

/-- Settles O26: it holds; `tdiff` is the elapsed time modulo 2^32. -/
theorem cooldownTest : Obligations.CooldownTest := by
  unfold Obligations.CooldownTest
  exact cooldownOk_iff

/-! ### What a tick decides -/

/-- The duty-cycle condition is the reading and the cooldown: its admission test always passes (R174, R176). -/
theorem dutyFires_eq (s : State) :
    dutyFires s =
      (dutyExceeds s.td s.sch &&
        cooldownOk s.sch.duty_fired s.sch.duty_last s.sch.CFG_DUTY_CD s.port.now_ms) := by
  simp [dutyFires, State.now]

theorem dutyFires_iff (s : State) :
    dutyFires s = true ↔
      s.td.snap_rt_valid = true ∧ s.sch.CFG_DUTY_THR ≠ 0 ∧
        (s.sch.CFG_DUTY_THR.toNat : Int) < |s16 s.td.snap_duty| ∧
        (s.sch.duty_fired = false ∨ s.sch.CFG_DUTY_CD.toNat ≤ elapsed s.port.now_ms s.sch.duty_last) := by
  rw [dutyFires_eq, Bool.and_eq_true, cooldownOk_iff, Int.abs_eq_natAbs, Int.ofNat_lt]
  simp [dutyExceeds, and_assoc]

/-- The first two steps of a tick change nothing the duty-cycle condition depends on. -/
@[simp] theorem dutyFires_in_tick (s : State) : dutyFires s.drivePulse.detectIdle = dutyFires s := by
  rw [dutyFires_eq, dutyFires_eq, State.detectIdle_eq, State.drivePulse_eq]
  rfl

/-- The priority that the third step of a tick leaves (R173, R174). -/
def State.prioAfterDuty (s : State) : Priority :=
  if dutyFires s = true then .dutyCycle else if s.port.tone_busy = true then s.sch.prio else .none

/-- The low-voltage condition fires in a tick (R175). -/
def lowvFiresInTick (s : State) : Bool := lowvFires s.drivePulse.detectIdle.dutyStep

/-- The low-voltage condition tests the reading and the cooldown before the tick, and the priority that the third step
left (R175). -/
theorem lowvFiresInTick_eq (s : State) :
    lowvFiresInTick s =
      (voltBelow s.td s.sch && cooldownOk s.sch.lowv_fired s.sch.lowv_last s.sch.CFG_LOWV_CD s.port.now_ms &&
        admits .lowVoltage s.prioAfterDuty) := by
  rw [lowvFiresInTick, State.dutyStep_eq, dutyFires_in_tick, State.detectIdle_eq, State.drivePulse_eq]
  rfl

theorem lowvFiresInTick_iff (s : State) :
    lowvFiresInTick s = true ↔
      voltBelow s.td s.sch = true ∧
        cooldownOk s.sch.lowv_fired s.sch.lowv_last s.sch.CFG_LOWV_CD s.port.now_ms = true ∧
        s.prioAfterDuty ≠ .dutyCycle := by
  rw [lowvFiresInTick_eq, Bool.and_eq_true, Bool.and_eq_true, admits_lowVoltage_iff, and_assoc]

/-- A tick fires at most one of its two alerts (R178). -/
theorem lowvFiresInTick_of_duty {s : State} (h : dutyFires s = true) : lowvFiresInTick s = false :=
  lowvFires_after_duty _ (by rwa [dutyFires_in_tick])

/-! ### The state after a tick -/

/-- The state after a tick, by which of its three outputs it made (R171 to R175). -/
def State.ticked (s : State) (pulse duty lowv : Bool) : State :=
  { s with
    sch :=
      { s.sch with
        prio := if lowv = true then .lowVoltage else s.prioAfterDuty
        tone_last := if pulse = true then s.port.now_ms else s.sch.tone_last
        duty_last := if duty = true then s.port.now_ms else s.sch.duty_last
        duty_fired := s.sch.duty_fired || duty
        lowv_last := if lowv = true then s.port.now_ms else s.sch.lowv_last
        lowv_fired := s.sch.lowv_fired || lowv }
    outs := .respond .ok (tickValue pulse (tickPattern duty lowv)) ::
      ((if lowv = true then [.toneEnqueue .descending] else []) ++
        (if duty = true then [.toneEnqueue .singleBeep] else []) ++
        (if pulse = true then [.toneTick] else []) ++ s.outs) }

theorem exec_asTick_eq_ticked {s : State} (h : s.sch.sch_init = true) :
    exec .asTick s = .next (s.ticked (pulseDue s) (dutyFires s) (lowvFiresInTick s)) := by
  rw [exec_asTick_of_init s h, State.tick_eq s _ _ _ rfl rfl rfl, dutyFires_in_tick, ← List.append_assoc,
    ← List.append_assoc]
  rfl

/-- The two alerts of a tick exclude each other, so `pulse * 4 + q` has one bit for each output. -/
theorem tickValue_toNat (pulse : Bool) {duty lowv : Bool} (h : duty = true → lowv = false) :
    (tickValue pulse (tickPattern duty lowv)).toNat = 4 * flag pulse + 2 * flag lowv + flag duty := by
  cases duty with
  | false => cases pulse <;> cases lowv <;> rfl
  | true =>
    rw [h rfl]
    cases pulse <;> rfl

theorem count_ite (b : Bool) (o x : Output) :
    (if b = true then [o] else []).count x = if o = x then flag b else 0 := by
  cases b <;> simp [flag, List.count_singleton]

theorem countP_ite (p : Output → Bool) (b : Bool) (o : Output) :
    (if b = true then [o] else []).countP p = if p o = true then flag b else 0 := by
  cases b <;> simp [flag, List.countP_singleton]

section
variable (s : State) (pulse duty lowv : Bool)

theorem State.ticked_countP_isEnqueue :
    (s.ticked pulse duty lowv).outs.countP isEnqueue = s.outs.countP isEnqueue + flag lowv + flag duty := by
  simp [State.ticked, countP_ite, isEnqueue, Nat.add_assoc, Nat.add_comm, Nat.add_left_comm]

theorem State.ticked_count_singleBeep :
    (s.ticked pulse duty lowv).outs.count (.toneEnqueue .singleBeep) =
      s.outs.count (.toneEnqueue .singleBeep) + flag duty := by
  simp [State.ticked, count_ite, Nat.add_comm]

theorem State.ticked_count_descending :
    (s.ticked pulse duty lowv).outs.count (.toneEnqueue .descending) =
      s.outs.count (.toneEnqueue .descending) + flag lowv := by
  simp [State.ticked, count_ite, Nat.add_comm]

theorem State.ticked_count_startupChime :
    (s.ticked pulse duty lowv).outs.count (.toneEnqueue .startupChime) =
      s.outs.count (.toneEnqueue .startupChime) := by
  simp [State.ticked, count_ite]

end

/-! ### One tick -/

/-- Settles O24: it holds; the state after a tick is `State.ticked` of the three decisions. -/
theorem tickRunsFourSteps : Obligations.TickRunsFourSteps := by
  unfold Obligations.TickRunsFourSteps
  intro s
  refine ⟨exec_asTick_of_uninit s, fun h => ⟨pulseDue s, dutyFires s, lowvFiresInTick s, _, s.prioAfterDuty, _,
    pulseDue_iff s, rfl, dutyFires_iff s, rfl, ?_, tickValue_toNat _ lowvFiresInTick_of_duty,
    exec_asTick_eq_ticked h⟩⟩
  rw [lowvFiresInTick_iff, cooldownOk_iff]
  simp [voltBelow, and_assoc]

/-- Settles O27: it holds; the two alerts of a tick exclude each other. -/
theorem atMostOnePatternPerTick : Obligations.AtMostOnePatternPerTick := by
  unfold Obligations.AtMostOnePatternPerTick
  intro s
  cases h : s.sch.sch_init with
  | false => exact ⟨_, exec_asTick_of_uninit s h, by simp [isEnqueue]⟩
  | true =>
    refine ⟨_, exec_asTick_eq_ticked h, ?_⟩
    rw [State.ticked_countP_isEnqueue]
    cases hd : dutyFires s with
    | false => cases lowvFiresInTick s <;> simp [flag]
    | true => simp [lowvFiresInTick_of_duty hd, flag]

/-- Settles O28: it holds; with an idle driver and no alert the second step's None is what the tick leaves. -/
theorem priorityMeansBusyOrFired : Obligations.PriorityMeansBusyOrFired := by
  unfold Obligations.PriorityMeansBusyOrFired
  intro s t hinit ht hprio
  cases (exec_asTick_eq_ticked hinit).symm.trans ht
  rw [State.ticked_countP_isEnqueue]
  cases hd : dutyFires s with
  | true => simp [lowvFiresInTick_of_duty hd, flag]
  | false =>
    cases hl : lowvFiresInTick s with
    | true => simp [flag]
    | false =>
      left
      by_contra hidle
      exact hprio (by simp [State.ticked, State.prioAfterDuty, hd, hl, hidle])

/-- Settles O29: it holds; with the reading above the threshold the duty-cycle condition is its cooldown test. -/
theorem dutyAlertFiresOncePerCooldown : Obligations.DutyAlertFiresOncePerCooldown := by
  unfold Obligations.DutyAlertFiresOncePerCooldown
  intro s hinit hvalid hthr hexceeds
  refine ⟨_, exec_asTick_eq_ticked hinit, fun hcd => ?_, fun hfired hcd => ?_⟩
  · have hd : dutyFires s = true := (dutyFires_iff s).2 ⟨hvalid, hthr, hexceeds, hcd⟩
    rw [State.ticked_count_singleBeep, hd]
    exact ⟨rfl, Bool.or_true _, rfl⟩
  · have hd : dutyFires s = false := by
      rw [← Bool.not_eq_true, dutyFires_iff]
      rintro ⟨-, -, -, hnot | hle⟩
      · simp [hfired] at hnot
      · omega
    rw [State.ticked_count_singleBeep, hd]
    exact ⟨rfl, by simp [State.ticked, hfired], rfl⟩

/-- Settles O30: it holds; under a busy driver the third step leaves the duty-cycle priority, under an idle one without
a firing it leaves None. -/
theorem dutyAlertBlocksLowVoltage : Obligations.DutyAlertBlocksLowVoltage := by
  unfold Obligations.DutyAlertBlocksLowVoltage
  intro s hinit hprio
  refine ⟨_, exec_asTick_eq_ticked hinit, fun hbusy => ?_, fun hidle hvolt hcd hcount => ?_⟩
  · have hafter : s.prioAfterDuty = .dutyCycle := by simp [State.prioAfterDuty, hbusy, hprio]
    have hl : lowvFiresInTick s = false := by
      rw [← Bool.not_eq_true, lowvFiresInTick_iff]
      exact fun ⟨_, _, hne⟩ => hne hafter
    rw [State.ticked_count_descending, hl]
    exact ⟨rfl, hafter, rfl⟩
  · have hd : dutyFires s = false := by
      cases hd : dutyFires s with
      | false => rfl
      | true => simp [State.ticked_count_singleBeep, hd, flag] at hcount
    have hafter : s.prioAfterDuty = .none := by simp [State.prioAfterDuty, hd, hidle]
    have hl : lowvFiresInTick s = true := (lowvFiresInTick_iff s).2 ⟨hvolt, hcd, by simp [hafter]⟩
    rw [State.ticked_count_descending, hl]
    exact ⟨rfl, rfl⟩

/-! ### Initialisation and the chime -/

/-- Settles O23: it holds; the chime stands between the response and the earlier outputs. -/
theorem schedulerInitialisation : Obligations.SchedulerInitialisation := by
  unfold Obligations.SchedulerInitialisation
  intro s
  refine ⟨exec_asInit_of_init s, fun h => ?_⟩
  rw [exec_asInit_of_uninit s h, State.queueChime_eq]
  rfl

/-- The chimes queued so far. -/
def State.chimes (s : State) : Nat := s.outs.count (.toneEnqueue .startupChime)

@[simp] theorem State.chimes_respond (s : State) (c : RspCode) (v : Dword) :
    (s.respond c v).chimes = s.chimes := by simp [State.chimes]

@[simp] theorem State.chimes_fail (s : State) (c : RspCode) : (s.fail c).chimes = s.chimes := s.chimes_respond c 0

theorem exec_asTick_chimes {s t : State} (h : exec .asTick s = .next t) : t.chimes = s.chimes := by
  cases hinit : s.sch.sch_init with
  | false =>
    cases (exec_asTick_of_uninit s hinit).symm.trans h
    exact s.chimes_fail _
  | true =>
    cases (exec_asTick_eq_ticked hinit).symm.trans h
    exact s.ticked_count_startupChime _ _ _

theorem execCsrWr_chimes {n : Byte} {v : Dword} {s t : State} (h : execCsrWr n v s = .next t) :
    t.chimes = s.chimes := by
  rcases execCsrWr_cases n v s with ⟨c, -, e⟩ | ⟨r, u, -, hu, e⟩ <;> cases e.symm.trans h
  · exact s.chimes_fail c
  · obtain ⟨houts, -⟩ := csrStore_keeps hu
    rw [State.chimes_respond, State.chimes, houts, State.chimes]

theorem execRePoll_chimes {s t : State} (h : execRePoll s = .next t) : t.chimes = s.chimes := by
  rcases execRePoll_cases s with ⟨-, e⟩ | ⟨-, -, e⟩ | ⟨-, -, e⟩ <;> cases e.symm.trans h <;> rfl

/-- No operation but AS.INIT queues a chime. -/
theorem exec_chimes_of_ne_asInit {i : Instr} (hi : i ≠ .asInit) {s t : State} (h : exec i s = .next t) :
    t.chimes = s.chimes := by
  cases i with
  | asInit => exact absurd rfl hi
  | asTick => exact exec_asTick_chimes h
  | csrWr n v => exact execCsrWr_chimes h
  | rePoll => exact execRePoll_chimes h
  | reStart sel => rcases execReStart_cases sel s with e | ⟨r, -, e⟩ <;> cases e.symm.trans h <;> rfl
  | reRd x =>
    obtain ⟨c, v, e, -⟩ := execReRd_cases x s
    cases e.symm.trans h
    rfl
  | tdDecode tag => rcases execTdDecode_cases tag s with ⟨c, -, e⟩ | ⟨m, -, -, e⟩ <;> cases e.symm.trans h <;> rfl
  | tdBcast n d => rcases execTdBcast_cases n d s with ⟨c, -, e⟩ | ⟨-, -, e⟩ <;> cases e.symm.trans h <;> rfl
  | csrRd n => rcases execCsrRd_cases n s with ⟨-, e⟩ | ⟨r, -, e⟩ <;> cases e.symm.trans h <;> rfl
  | txReq | txReqRt | txReqBal | rxNone | rxFill | rxHdr | rxIgn | reEnd | msgRt | msgBal | nop =>
    cases h
    rfl

/-- A chime is queued once and as the scheduler is initialised, or not at all (R170). -/
def ChimeOnlyAtInit (s t : State) : Prop :=
  t.chimes = s.chimes ∨ (t.chimes = s.chimes + 1 ∧ s.sch.sch_init = false ∧ t.sch.sch_init = true)

theorem exec_asInit_chimes {s t : State} (h : exec .asInit s = .next t) : ChimeOnlyAtInit s t := by
  cases hinit : s.sch.sch_init with
  | true =>
    cases (exec_asInit_of_init s hinit).symm.trans h
    exact .inl (s.chimes_fail _)
  | false =>
    cases (exec_asInit_of_uninit s hinit).symm.trans h
    rw [State.queueChime_eq]
    cases hen : s.sch.CFG_CHIME_EN with
    | false => exact .inl (by simp [State.chimes])
    | true => exact .inr ⟨by simp [State.chimes], hinit, rfl⟩

theorem exec_chimeOnlyAtInit {i : Instr} {s t : State} (h : exec i s = .next t) : ChimeOnlyAtInit s t := by
  by_cases hi : i = .asInit
  · subst hi
    exact exec_asInit_chimes h
  · exact .inl (exec_chimes_of_ne_asInit hi h)

/-- No operation undoes the initialisation: of the scheduler's writers AS.INIT and AS.TICK keep it, and CSR.WR stores
configuration registers alone (R47). -/
theorem exec_keeps_sch_init {i : Instr} {s t : State} (h : exec i s = .next t)
    (hinit : s.sch.sch_init = true) : t.sch.sch_init = true := by
  by_cases hsch : t.sch = s.sch
  · rwa [hsch]
  · rcases (exec_frame h).sch hsch with hw | hw
    · rcases (writes_eq_scheduler_iff i).1 hw with rfl | rfl
      · cases (exec_asInit_of_init s hinit).symm.trans h
        exact hinit
      · cases (exec_asTick_eq_ticked hinit).symm.trans h
        exact hinit
    · obtain ⟨n, v, rfl⟩ := (writes_eq_config_iff i).1 hw
      rcases execCsrWr_cases n v s with ⟨c, -, e⟩ | ⟨r, u, -, hu, e⟩ <;> cases e.symm.trans h
      · exact hinit
      · rw [csrStore_frame s v r u hu]
        exact hinit

/-- Settles O31: it holds; AS.INIT alone queues the chime, and only reset clears `sch_init`. -/
theorem chimeQueuedOncePerLifetime : Obligations.ChimeQueuedOncePerLifetime := by
  unfold Obligations.ChimeQueuedOncePerLifetime
  intro s t h
  have hsch := s.sample_sch
  have hchimes : s.sample.chimes = s.chimes := congrArg (List.count _) s.sample_outs
  suffices hlaw : ChimeOnlyAtInit s.sample t ∧
      (s.sample.sch.sch_init = true → t.sch.sch_init = true ∨ s.sample.port.rst = true) by
    rwa [ChimeOnlyAtInit, hchimes, hsch] at hlaw
  have hrun {i : Instr} (hi : exec i s.sample = .next t) : ChimeOnlyAtInit s.sample t ∧
      (s.sample.sch.sch_init = true → t.sch.sch_init = true ∨ s.sample.port.rst = true) :=
    ⟨exec_chimeOnlyAtInit hi, fun hinit => .inl (exec_keeps_sch_init hi hinit)⟩
  rcases step_cases s with ⟨hrst, e⟩ | ⟨w, i, -, -, -, e⟩ | ⟨w, r, -, -, -, e⟩ | ⟨-, -, -, e⟩ | ⟨-, -, -, e⟩
  · cases e.symm.trans h
    exact ⟨.inl rfl, fun _ => .inr hrst⟩
  · exact hrun (e.symm.trans h)
  · cases e.symm.trans h
    exact ⟨.inl (State.chimes_fail _ _), .inl⟩
  · exact hrun (e.symm.trans h)
  · cases e.symm.trans h
    exact ⟨.inl rfl, .inl⟩

end Sys2Proof.Machine

/-! SUPPORT. NOP answers and does nothing else (R200). -/

namespace Sys2Proof.Machine

theorem exec_nop (s : State) : exec .nop s = .next (s.respond .ok 0) := rfl

/-- The response's exact frame: of the whole state it changes the outputs alone (R14, R102). -/
theorem State.respond_eq (s : State) (c : RspCode) (v : Dword) :
    s.respond c v = { s with outs := .respond c v :: s.outs } := rfl

/-- Settles O32: it holds; NOP is its response, and a response only adds an output. -/
theorem nopChangesNothing : Obligations.NopChangesNothing := by
  unfold Obligations.NopChangesNothing
  intro s
  rw [exec_nop, State.respond_eq]

end Sys2Proof.Machine

/-! SUPPORT. What stands for exceptions (60_exceptions.md): a failing command has no effect (R221, R223), what the bus
sends stays in the cycle state (R226), and every operation has a next state (R220). -/

namespace Sys2Proof.Machine

/-! ### A failing command -/

/-- The result is a state with its response, and if the code is a failure the value is 0 and the state is `s` (R221,
R223). -/
def FailsWithoutEffect (s : State) (r : Result) : Prop :=
  ∃ u c v, r = .next (u.respond c v) ∧ (c ≠ .ok → v = 0 ∧ u = s)

theorem FailsWithoutEffect.fail (s : State) (c : RspCode) : FailsWithoutEffect s (.next (s.fail c)) :=
  ⟨s, c, 0, rfl, fun _ => ⟨rfl, rfl⟩⟩

theorem FailsWithoutEffect.ok (s u : State) (v : Dword) : FailsWithoutEffect s (.next (u.respond .ok v)) :=
  ⟨u, .ok, v, rfl, absurd rfl⟩

/-- Each command answers `OK`, or fails before it has written anything. -/
theorem exec_failsWithoutEffect {i : Instr} (hi : hostCommand i = true) (s : State) :
    FailsWithoutEffect s (exec i s) := by
  cases i with
  | reStart sel =>
    rcases execReStart_cases sel s with e | ⟨r, -, e⟩ <;> rw [exec, e]
    · exact .fail s _
    · exact .ok s _ _
  | reRd x =>
    obtain ⟨c, v, e, hv⟩ := execReRd_cases x s
    exact ⟨s, c, v, e, fun hc => ⟨hv hc, rfl⟩⟩
  | tdDecode tag =>
    rcases execTdDecode_cases tag s with ⟨c, -, e⟩ | ⟨m, -, -, e⟩ <;> rw [exec, e]
    · exact .fail s c
    · exact .ok s _ _
  | tdBcast n d =>
    rcases execTdBcast_cases n d s with ⟨c, -, e⟩ | ⟨-, -, e⟩ <;> rw [exec, e]
    · exact .fail s c
    · exact .ok s _ _
  | asInit =>
    rcases execAsInit_cases s with ⟨-, e⟩ | ⟨-, e⟩ <;> rw [exec, e]
    · exact .fail s _
    · exact .ok s _ _
  | asTick =>
    rcases execAsTick_cases s with ⟨-, e⟩ | ⟨-, e⟩ <;> rw [exec, e]
    · exact .fail s _
    · exact .ok s _ _
  | nop => exact .ok s _ _
  | csrWr n v =>
    rcases execCsrWr_cases n v s with ⟨c, -, e⟩ | ⟨r, u, -, -, e⟩ <;> rw [exec, e]
    · exact .fail s c
    · exact .ok s _ _
  | csrRd n =>
    rcases execCsrRd_cases n s with ⟨-, e⟩ | ⟨r, -, e⟩ <;> rw [exec, e]
    · exact .fail s _
    · exact .ok s _ _
  | txReq | txReqRt | txReqBal | rePoll | rxNone | rxFill | rxHdr | rxIgn | reEnd | msgRt | msgBal =>
    cases hi

/-- Settles O37: it holds; the last output is the response, so its code tells whether the state was written. -/
theorem failingCommandHasNoEffect : Obligations.FailingCommandHasNoEffect := by
  unfold Obligations.FailingCommandHasNoEffect
  intro i s t c v hi h hout hc
  obtain ⟨u, c', v', e, hfail⟩ := exec_failsWithoutEffect hi s
  cases e.symm.trans h
  rw [State.respond_outs, List.head?_cons, Option.some_inj, Output.respond.injEq] at hout
  obtain ⟨rfl, rfl⟩ := hout
  obtain ⟨rfl, rfl⟩ := hfail hc
  exact ⟨rfl, State.respond_eq u c' 0⟩

/-! ### What the bus reaches -/

/-- The request descriptor and the window's origin are the same in both records (R28, R32). -/
structure ReState.SameRequest (re re' : ReState) : Prop where
  dest : re'.REQ_DEST = re.REQ_DEST
  tag : re'.REQ_TAG = re.REQ_TAG
  len : re'.REQ_LEN = re.REQ_LEN
  pay : re'.REQ_PAY = re.REQ_PAY
  origin : re'.re_t0 = re.re_t0

theorem ReState.SameRequest.refl (re : ReState) : re.SameRequest re := ⟨rfl, rfl, rfl, rfl, rfl⟩

theorem ReState.sameRequest_endCycle (re : ReState) : re.SameRequest re.endCycle := by
  constructor <;> simp

/-- Counting the poll, the answer's effect and the early exit all keep the request (R122 to R129). -/
theorem State.sameRequest_iterate (s : State) : s.re.SameRequest s.iterate.re := by
  rw [State.iterate_eq]
  rcases ReState.earlyExit_cases (ReState.accept { s.re with re_polls := s.re.re_polls + 1 }
    (classify s.cfg s.nextAnswer)) with ⟨-, e⟩ | ⟨-, e⟩ <;> rw [e] <;> constructor <;> simp

/-- A poll of a collection keeps the request and outputs at most itself (R122). -/
theorem exec_rePoll_sameRequest (s : State) :
    ∃ t, exec .rePoll s = .next t ∧ s.re.SameRequest t.re ∧ (t.outs = s.outs ∨ t.outs = .rxPoll :: s.outs) := by
  rcases execRePoll_cases s with ⟨-, e⟩ | ⟨-, -, e⟩ | ⟨-, -, e⟩
  · exact ⟨_, e, .refl s.re, .inl rfl⟩
  · exact ⟨_, e, s.re.sameRequest_endCycle, .inl rfl⟩
  · exact ⟨_, e, s.sameRequest_iterate, .inr rfl⟩

theorem Writes.Frame.of_poll {s t : State} (h : Writes.poll.Frame s t) :
    t.cfg = s.cfg ∧ t.td = s.td ∧ t.sch = s.sch := by
  rw [h]
  exact ⟨rfl, rfl, rfl⟩

/-- Settles O39: it holds; outside the engine by the frame of a poll, inside it by what each of its cases keeps. -/
theorem busReachesOnlyCycleState : Obligations.BusReachesOnlyCycleState := by
  unfold Obligations.BusReachesOnlyCycleState
  intro s
  obtain ⟨t, ht, ⟨hdest, htag, hlen, hpay, horigin⟩, houts⟩ := exec_rePoll_sameRequest s
  obtain ⟨hcfg, htd, hsch⟩ := Writes.Frame.of_poll (exec_frame ht)
  exact ⟨t, ht, hcfg, htd, hsch, hdest, htag, hlen, hpay, horigin, houts⟩

/-! ### Every operation has a next state -/

/-- No arm faults or is refused: a host command answers, and every other operation completes without an answer. -/
theorem exec_total (i : Instr) (s : State) : ∃ t, exec i s = .next t := by
  obtain ⟨t, ht, -, -⟩ := everyCommandAnswersOnce i s
  exact ⟨t, ht⟩

theorem step_total (s : State) : ∃ t, step s = .next t := by
  rcases step_cases s with ⟨-, e⟩ | ⟨w, i, -, -, -, e⟩ | ⟨w, r, -, -, -, e⟩ | ⟨-, -, -, e⟩ | ⟨-, -, -, e⟩
  · exact ⟨_, e⟩
  · exact e ▸ exec_total i s.sample
  · exact ⟨_, e⟩
  · exact e ▸ exec_total .rePoll s.sample
  · exact ⟨_, e⟩

/-- Settles O47: it holds; whatever a sample selects is a reset, a response, nothing, or an operation that completes. -/
theorem neverTrapsOrHalts : Obligations.NeverTrapsOrHalts := by
  unfold Obligations.NeverTrapsOrHalts
  exact fun s => ⟨step_total s, fun i => exec_total i s⟩

end Sys2Proof.Machine

/-! SUPPORT. Reset at a scheduled sample (R250, R251): it wins over a command presented with it, and outputs nothing. -/

namespace Sys2Proof.Machine

/-- Reset wins over whatever else the sample holds (R225 i, R250). -/
theorem step_of_rst {s : State} (h : s.sample.port.rst = true) : step s = .next s.sample.applyReset := by
  rw [step, State.selected, if_pos h]

/-- Reset is the machine after reset for the same parameters, except for the environment's side: the inputs, the
transport's answers and the outputs so far are not reached (R55, R250). -/
theorem State.applyReset_eq_resetWith (s : State) :
    s.applyReset =
      { State.resetWith s.cfg with
        port := s.port, script := s.script, rxAnswers := s.rxAnswers, outs := s.outs, free := s.free } := rfl

/-- Settles O43: it holds; the sample selects reset before its command is looked at, and reset reaches registers only. -/
theorem resetWinsAndEmitsNothing : Obligations.ResetWinsAndEmitsNothing := by
  unfold Obligations.ResetWinsAndEmitsNothing
  intro s p rest hscript hrst
  have hsample : s.sample = { s with port := p, script := rest } := State.sample_scheduled s p rest hscript
  have hport : s.sample.port.rst = true := by rw [hsample]; exact hrst
  rw [step_of_rst hport, State.applyReset_eq_resetWith, hsample]

end Sys2Proof.Machine
